-- ==== Sys2Proof/Word.lean ====
section
/-! DEFINITION. The widths of the engine's values (R5, R7): bytes, 16-bit words, command words and response words.
All are unsigned bit vectors, bit 0 least significant (R8). -/

namespace Sys2Proof

/-- One message byte, and an index into the table (R5 `BYTE_W`, R26). -/
abbrev Byte := BitVec 8

/-- A 16-bit value: the accumulator, a table entry, the operand of `CHK` (R5 `CRC_W`, `TABLE_W`). -/
abbrev Word := BitVec 16

/-- A command word as the host presents it (R7 `CW_W`, R40). -/
abbrev CommandWord := BitVec 20

/-- A response word as the engine answers it (R7 `RW_W`, R44). -/
abbrev ResponseWord := BitVec 18

end Sys2Proof
end

