-- ==== Sys2Proof/Config.lean ====
section
/-! DEFINITION. The engine's build-time configuration: the OPEN parameters of R6, as one record.
Nothing of the machine's meaning names a particular record: what is proved over all states holds for all parameters. -/

namespace Sys2Proof

/-- Which of the two table-driven update forms the engine uses (R6, R56). -/
inductive Dir where
  /-- The low byte of the accumulator forms the index and the accumulator moves right. -/
  | lsbFirst
  /-- The high byte of the accumulator forms the index and the accumulator moves left. -/
  | msbFirst
  deriving DecidableEq, Repr

/-- The configuration record `Params = (TABLE, INIT, DIR)` of R6.
The table has exactly 256 entries of 16 bits by its type (R17, R22). -/
structure Params where
  /-- `TABLE`, the read-only memory of the engine (R17). -/
  table : Vector Word 256
  /-- `INIT`, the accumulator at the start of every message. -/
  init : Word
  /-- `DIR`, the form of the update. -/
  dir : Dir
  deriving DecidableEq, Repr

end Sys2Proof
end

