-- ==== Sys2Proof/Syntax.lean ====
section
/-! DEFINITION. The five commands of the engine (R41, spec/opcode_table.json), one constructor per row. -/

namespace Sys2Proof

/-- A command the engine performs (41_commands.md).
The operand types are the operands' whole ranges: every byte and every 16-bit value is legal (R73, R75). -/
inductive Instr where
  /-- `NOP`: do nothing, report status (R71). -/
  | nop
  /-- `CLR`: start a message (R72). -/
  | clr
  /-- `UPD b`: absorb one byte (R73). -/
  | upd (b : Byte)
  /-- `RD`: return the accumulator (R74). -/
  | rd
  /-- `CHK t`: compare a received trailer with the accumulator (R75). -/
  | chk (t : Word)
  deriving DecidableEq, Repr

end Sys2Proof
end

