-- ==== Sys2Proof/WellFormed.lean ====
section
/-! DEFINITION. The format `CMD` of a command word (R40) and the checks on its two fields: a defined
operation code (R41) and zero in every must-be-zero operand bit (R42, R45). -/

namespace Sys2Proof

/-- The one command format: an operation code and an operand (R40). -/
structure CmdFields where
  op : BitVec 4
  arg : Word
  deriving DecidableEq, Repr

/-- The fields name a command: `op` is one of R41's five and `arg` has zeros where R42 demands them. -/
def CmdFields.wf (f : CmdFields) : Bool :=
  match f.op with
  | 0x0#4 | 0x1#4 | 0x3#4 => f.arg == 0#16
  | 0x2#4 => f.arg.extractLsb' 8 8 == 0#8
  | 0x4#4 => true
  | _ => false

/-- The fields of each command (the table of R42). -/
def Instr.fields : Instr → CmdFields
  | .nop => ⟨0x0#4, 0#16⟩
  | .clr => ⟨0x1#4, 0#16⟩
  | .upd b => ⟨0x2#4, 0#8 ++ b⟩
  | .rd => ⟨0x3#4, 0#16⟩
  | .chk t => ⟨0x4#4, t⟩

/-- A command is well formed when its fields are. -/
abbrev Instr.WellFormed (i : Instr) : Prop := i.fields.wf = true

end Sys2Proof
end

