-- ==== Sys2Proof/Decode.lean ====
section
/-! DEFINITION. Decoding and encoding of command words (30_encoding.md, R40 to R50). Decoding is total: every
20-bit value is one of the five commands or is rejected under the clause of R45 that makes it illegal. -/

namespace Sys2Proof

/-- Why a command word is illegal: the clauses (a) to (e) of R45. -/
inductive Illegal where
  /-- (a) `op` in `0x5..0xF`. -/
  | reservedOp
  /-- (b) `op = 0x0` with a nonzero operand. -/
  | nopOperand
  /-- (c) `op = 0x1` with a nonzero operand. -/
  | clrOperand
  /-- (d) `op = 0x2` with a nonzero high operand byte. -/
  | updOperand
  /-- (e) `op = 0x3` with a nonzero operand. -/
  | rdOperand
  deriving DecidableEq, Repr

/-- `cw[19:16]` (R40). -/
def opField (cw : CommandWord) : BitVec 4 := cw.extractLsb' 16 4

/-- `cw[15:0]` (R40). -/
def argField (cw : CommandWord) : Word := cw.extractLsb' 0 16

/-- `arg[15:8]`, zero in every legal `UPD` (R42). -/
def argHigh (arg : Word) : Byte := arg.extractLsb' 8 8

/-- `arg[7:0]`, the message byte of `UPD` (R42). -/
def argLow (arg : Word) : Byte := arg.extractLsb' 0 8

/-- The command word with these fields (R40). -/
def ofFields (f : CmdFields) : CommandWord := f.op ++ f.arg

/-- Decoding, as R50's pseudocode; a word no clause accepts is rejected by R45's clause. -/
def decode (cw : CommandWord) : Except Illegal Instr :=
  match opField cw with
  | 0x0#4 => if argField cw = 0#16 then .ok .nop else .error .nopOperand
  | 0x1#4 => if argField cw = 0#16 then .ok .clr else .error .clrOperand
  | 0x2#4 => if argHigh (argField cw) = 0#8 then .ok (.upd (argLow (argField cw))) else .error .updOperand
  | 0x3#4 => if argField cw = 0#16 then .ok .rd else .error .rdOperand
  | 0x4#4 => .ok (.chk (argField cw))
  | _ => .error .reservedOp

/-- The word names no command (R45). -/
def isIllegal (cw : CommandWord) : Bool :=
  match decode cw with
  | .ok _ => false
  | .error _ => true

/-- Encoding, by R50's formulas. -/
def encode : Instr → CommandWord
  | .nop => 0x00000#20
  | .clr => 0x10000#20
  | .upd b => 0x20000#20 + b.setWidth 20
  | .rd => 0x30000#20
  | .chk t => 0x40000#20 + t.setWidth 20

/-- The mnemonic of a command (R41). -/
def mnemonicOf : Instr → String
  | .nop => "NOP"
  | .clr => "CLR"
  | .upd _ => "UPD"
  | .rd => "RD"
  | .chk _ => "CHK"

/-- One row of R42: `cw` names the command iff `cw` and-ed with `mask` is `pattern`. -/
structure OpRow where
  mnemonic : String
  pattern : CommandWord
  mask : CommandWord
  deriving DecidableEq, Repr

/-- The table of R42, in its order. -/
def opRows : List OpRow :=
  [⟨"NOP", 0x00000#20, 0xFFFFF#20⟩,
   ⟨"CLR", 0x10000#20, 0xFFFFF#20⟩,
   ⟨"UPD", 0x20000#20, 0xFFF00#20⟩,
   ⟨"RD", 0x30000#20, 0xFFFFF#20⟩,
   ⟨"CHK", 0x40000#20, 0xF0000#20⟩]

/-- The row's test on a command word (R42). -/
def rowSelects (r : OpRow) (cw : CommandWord) : Bool := cw &&& r.mask == r.pattern

/-- The command word a number of `nbits` bits stands for: the command port is 20 lines wide (R40), so a number
that needs more is no command word. -/
def wordOfNat (nbits w : Nat) : Option CommandWord :=
  let v := w % 2 ^ nbits
  if v < 2 ^ 20 then some (BitVec.ofNat 20 v) else none

/-- What the decoder reads from an instruction whose bits are `w`. -/
def decodeTableWord (nbits w : Nat) : Option Instr :=
  match wordOfNat nbits w with
  | some cw => (decode cw).toOption
  | none => none

end Sys2Proof
end

