-- ==== Sys2Proof/Machine/Operands.lean ====
section
/-! DEFINITION. The operand forms: the two bytes of a 16-bit value and the trailer order that relates them to
message bytes (R8, R27, R43). -/

namespace Sys2Proof.Machine

/-- `v[7:0]` (R8). -/
def lowByte (v : Word) : Byte := v.extractLsb' 0 8

/-- `v[15:8]` (R8). -/
def highByte (v : Word) : Byte := v.extractLsb' 8 8

/-- A 16-bit result as the two trailer bytes, low byte first (R27). -/
def trailer (v : Word) : List Byte := [lowByte v, highByte v]

/-- Two received trailer bytes as a 16-bit value: `b0` came first on the wire (R27).
It is the operand of `CHK` on a received frame (R43). -/
def untrailer (b0 b1 : Byte) : Word := b1 ++ b0

end Sys2Proof.Machine
end

