-- ==== Sys2Proof/Machine/CrcFunction.lean ====
section
/-! DEFINITION. The checksum function (40_crc_function.md): the table lookup, the step on one byte, the fold over a
message, and the named properties a table may have. -/

namespace Sys2Proof.Machine

/-- `TABLE[i]` (R26): the index is 8 bits, so it is always in range. -/
def lookup (p : Params) (i : Byte) : Word := p.table.get i.toFin

/-- The 8-bit table index: the byte of the accumulator that `DIR` selects, xor the message byte (R57). -/
def crcIndex (dir : Dir) (c : Word) (b : Byte) : Byte :=
  match dir with
  | .lsbFirst => lowByte c ^^^ b
  | .msbFirst => highByte c ^^^ b

/-- The accumulator moved by eight places in the direction of `DIR`, zeros entering (R56, R59). -/
def crcShift (dir : Dir) (c : Word) : Word :=
  match dir with
  | .lsbFirst => c >>> 8
  | .msbFirst => c <<< 8

/-- `step(c, b)` of R56. -/
def crcStep (p : Params) (c : Word) (b : Byte) : Word :=
  crcShift p.dir c ^^^ lookup p (crcIndex p.dir c b)

/-- Absorbing a byte sequence in ascending order from the accumulator `c` (R28, R55). -/
def absorb (p : Params) (c : Word) (message : List Byte) : Word := message.foldl (crcStep p) c

/-- `checksum16(B)` of R55: from `INIT`, with no final transformation. -/
def checksum16 (p : Params) (message : List Byte) : Word := absorb p p.init message

/-- `checksum(B)`, the document's 2-byte value (R58). -/
def checksum (p : Params) (message : List Byte) : List Byte := trailer (checksum16 p message)

/-- `T0` of R64. -/
abbrev TableT0 (p : Params) : Prop := lookup p 0#8 = 0#16

/-- `LIN` of R64. -/
abbrev TableLIN (p : Params) : Prop := ∀ i j : Byte, lookup p (i ^^^ j) = lookup p i ^^^ lookup p j

/-- `INJ` of R64: the entries are pairwise distinct. -/
abbrev TableINJ (p : Params) : Prop := ∀ i j : Byte, lookup p i = lookup p j → i = j

/-- `HI0` of R64. -/
abbrev TableHI0 (p : Params) : Prop := ∀ j : Byte, highByte (lookup p j) = 0#8 → j = 0#8

end Sys2Proof.Machine
end

