-- ==== Sys2Proof/Machine/Flags.lean ====
section
/-! DEFINITION. The flag computations and the places of the flags in a response word (R13, R15, R44). -/

namespace Sys2Proof.Machine

/-- `MATCH` after `CHK t`: all 16 bits agree (R75). -/
def matchAfterChk (t crc : Word) : Bool := t == crc

/-- The response word with these fields: `err` bit 17, `match` bit 16, `data` bits 15..0 (R44). -/
def packResponse (data : Word) (matched err : Bool) : ResponseWord :=
  BitVec.ofBool err ++ BitVec.ofBool matched ++ data

/-- The `err` field of a response word (R44). -/
def responseErr (rw : ResponseWord) : Bool := rw.getLsbD 17

/-- The `match` field of a response word (R44). -/
def responseMatch (rw : ResponseWord) : Bool := rw.getLsbD 16

/-- The `data` field of a response word (R44). -/
def responseData (rw : ResponseWord) : Word := rw.extractLsb' 0 16

/-- `STATUS`: `ERR` the more significant bit, `MATCH` the other (R15). -/
def statusOf (matched err : Bool) : BitVec 2 := BitVec.ofBool err ++ BitVec.ofBool matched

/-- The bits of a response word that deliver `STATUS` (R15). -/
def responseStatus (rw : ResponseWord) : BitVec 2 := rw.extractLsb' 16 2

end Sys2Proof.Machine
end

