-- ==== Sys2Proof/Machine/State.lean ====
section
/-! DEFINITION. The machine's state as plain data (10_state.md): the registers `CRC`, `MATCH` and `ERR`, the
read-only configuration with the table, and the two ports as lists. -/

namespace Sys2Proof.Machine

/-- What the host drives into the engine between two commands (R105): a word at the command port or the reset
input, which is no command word and has no encoding (R110). -/
inductive PortInput where
  | command (cw : CommandWord)
  | reset
  deriving DecidableEq, Repr

/-- The exceptions of the engine: exactly one (R95, R96).
Its entry is a next state, so no step ever stops with it. -/
inductive Fault where
  /-- Raised by `raise` on an illegal command word in an unfaulted engine (R99).
  It is recorded in `ERR` and the machine goes on, so this is safe: nothing is hidden by a stop. -/
  | illegalCommand
  deriving DecidableEq, Repr

/-- Why the model gives an instruction no meaning. -/
inductive Refusal where
  /-- Answered by `exec` for an instruction without a meaning, named by its mnemonic; no arm answers it.
  Safe: the model would stop where the engine goes on. -/
  | notModelled (mnemonic : String)
  deriving DecidableEq, Repr

/-- The whole state of the engine and its ports. -/
structure State where
  /-- `TABLE`, `INIT` and `DIR`: fixed for the engine, written by nothing (R6, R15, R17; log entry 1). -/
  params : Params
  /-- `CRC`, the accumulator (R10). -/
  crc : Word
  /-- `MATCH`, the outcome of the last `CHK` that is still current (R13). -/
  matchBit : Bool
  /-- `ERR`, the sticky fault flag; the engine is faulted while it is set (R14). -/
  errBit : Bool
  /-- What the host has presented and the engine has not handled yet, oldest first (R12; log entry 3). -/
  pending : List PortInput
  /-- The response words produced so far, oldest first (R44, R120; log entry 4). -/
  responses : List ResponseWord
  deriving DecidableEq, Repr

/-- The engine with parameters `p` right after reset (R21, R110), nothing presented and nothing answered. -/
def State.resetWith (p : Params) : State :=
  { params := p, crc := p.init, matchBit := false, errBit := false, pending := [], responses := [] }

/-- The engine with the spec's default parameters right after reset (R21; parameters PRESUMED, log entry 2). -/
def State.reset : State := State.resetWith defaultParams

end Sys2Proof.Machine
end

