-- ==== Sys2Proof/Machine/Ops.lean ====
section
/-! DEFINITION. The operations every meaning is built from: the register updates, the response port, the gate of a
faulted engine, taking the exception, the reset input, and the command port. -/

namespace Sys2Proof.Machine

/-- `CRC <- v` (R8). -/
def setCrc (v : Word) (s : State) : State := { s with crc := v }

/-- `MATCH <- m` (R8). -/
def setMatch (m : Bool) (s : State) : State := { s with matchBit := m }

/-- `ERR <- e` (R8). -/
def setErr (e : Bool) (s : State) : State := { s with errBit := e }

/-- The command port holds `xs`. -/
def setPending (xs : List PortInput) (s : State) : State := { s with pending := xs }

/-- The response port delivers one more word, after all earlier ones (R44). -/
def emit (rw : ResponseWord) (s : State) : State := { s with responses := s.responses ++ [rw] }

/-- `respond(data, MATCH, ERR)` with the flags as they stand after the command (R44). -/
def respond (data : Word) (s : State) : State := emit (packResponse data s.matchBit s.errBit) s

/-- A faulted engine answers any word and changes nothing else (R70, R99). -/
def whenUnfaulted (perform : State → State) (s : State) : State :=
  if s.errBit then respond 0#16 s else perform s

/-- Taking the exception (R99): `ERR` is set, `CRC` and `MATCH` stay, the response shows `err = 1`. -/
def raise (f : Fault) (s : State) : State :=
  match f with
  | .illegalCommand => respond 0#16 (setErr true s)

/-- The reset input (R110), the only way out of the faulted state (R103): no response, the table untouched.
The responses given before it stay listed (DESIGN CHOICE, log entries 4 and 10). -/
def applyReset (s : State) : State := setErr false (setMatch false (setCrc s.params.init s))

/-- Absorbing one byte into `CRC` (R73, R56). -/
def absorbByte (b : Byte) (s : State) : State := setCrc (crcStep s.params s.crc b) s

/-- The host presents `xs` after everything it has presented before (R105). -/
def present (xs : List PortInput) (s : State) : State := setPending (s.pending ++ xs) s

/-- The host's next input is `x`, before everything else. -/
def presentNext (x : PortInput) (s : State) : State := setPending (x :: s.pending) s

end Sys2Proof.Machine
end

