-- ==== Sys2Proof/Machine/Commands.lean ====
section
/-! DEFINITION. The meanings of the five commands (R71 to R75), one definition each, over the shared operations.
Each has the gate of R70 in it, so it is the command's effect in every state, faulted or not. -/

namespace Sys2Proof.Machine

/-- `NOP` (R71). -/
def execNop (s : State) : Host.Outcome State Fault Refusal :=
  .next (whenUnfaulted (respond 0#16) s)

/-- `CLR` (R72). -/
def execClr (s : State) : Host.Outcome State Fault Refusal :=
  .next (whenUnfaulted (fun u => respond 0#16 (setMatch false (setCrc u.params.init u))) s)

/-- `UPD b` (R73). -/
def execUpd (b : Byte) (s : State) : Host.Outcome State Fault Refusal :=
  .next (whenUnfaulted (fun u => respond 0#16 (setMatch false (absorbByte b u))) s)

/-- `RD` (R74). -/
def execRd (s : State) : Host.Outcome State Fault Refusal :=
  .next (whenUnfaulted (fun u => respond u.crc u) s)

/-- `CHK t` (R75). -/
def execChk (t : Word) (s : State) : Host.Outcome State Fault Refusal :=
  .next (whenUnfaulted (fun u => respond 0#16 (setMatch (matchAfterChk t u.crc) u)) s)

end Sys2Proof.Machine
end

