-- ==== Sys2Proof/Machine/Dispatch.lean ====
section
/-! DEFINITION. One arm per command: the meaning of an instruction in a state. -/

namespace Sys2Proof.Machine

def exec (i : Instr) (s : State) : Host.Outcome State Fault Refusal :=
  match i with
  | .nop => Sys2Proof.Machine.execNop s
  | .clr => Sys2Proof.Machine.execClr s
  | .upd b => Sys2Proof.Machine.execUpd b s
  | .rd => Sys2Proof.Machine.execRd s
  | .chk t => Sys2Proof.Machine.execChk t s

end Sys2Proof.Machine
end

