-- ==== Sys2Proof/Machine/Execute.lean ====
section
/-! DEFINITION. The common execution rule (R70): one command word, legal or not, faulted engine or not. -/

namespace Sys2Proof.Machine

/-- An illegal word: ignored by a faulted engine, else the exception (R101). -/
def illegalWord (s : State) : State := whenUnfaulted (raise .illegalCommand) s

/-- `execute(cw)` of R70.
The gate `ERR = 1` stands in the meanings and in `illegalWord`, so it comes before every effect whatever the word. -/
def execute (cw : CommandWord) (s : State) : Host.Outcome State Fault Refusal :=
  match decode cw with
  | .ok i => exec i s
  | .error _ => .next (illegalWord s)

/-- One input from the host takes effect: a command word, or reset between two commands (R112). -/
def accept (x : PortInput) (s : State) : Host.Outcome State Fault Refusal :=
  match x with
  | .command cw => execute cw s
  | .reset => .next (applyReset s)

/-- Nothing is presented: the engine holds its state (R106, R120). -/
def idle (s : State) : Host.Outcome State Fault Refusal := .next s

/-- The host presents the word numbered `w` next; a number wider than the port is no word, so nothing is presented. -/
def presentNumber (nbits w : Nat) (s : State) : State :=
  match wordOfNat nbits w with
  | some cw => presentNext (.command cw) s
  | none => s

end Sys2Proof.Machine
end

