-- ==== Sys2Proof/Machine/Step.lean ====
section
/-! DEFINITION. One step of the machine: the oldest input is taken from the command port and takes effect whole
(R34, R70); with nothing presented the engine is idle. -/

namespace Sys2Proof.Machine

/-- One step. -/
def step (s : State) : Host.Outcome State Fault Refusal :=
  match s.pending with
  | [] => idle s
  | x :: rest => accept x (setPending rest s)

/-- `s` with the instruction numbered `w` presented as its next command word (log entry 5). -/
def State.withFetchWord (s : State) (nbits w : Nat) : State := presentNumber nbits w s

end Sys2Proof.Machine
end

