-- ==== Sys2Proof/Machine/Frame.lean ====
section
/-! DEFINITION. The bytes of a frame the checksum covers and where a frame ends (R86, R91, conflict C1): the host's
duties around the engine, as functions of the bytes. -/

namespace Sys2Proof.Machine

/-- The covered bytes of a whole frame: every byte before the last two (R86). -/
def coveredBytes (frame : List Byte) : List Byte := frame.take (frame.length - 2)

/-- The trailer of a whole frame: its last two bytes, in wire order (R86). -/
def trailerBytes (frame : List Byte) : List Byte := frame.drop (frame.length - 2)

/-- The whole frame's length from the payload length byte `L` at offset 5: `L + 6 + 2` (R91, C1). -/
def frameLength (payloadLength : Byte) : Nat := payloadLength.toNat + 6 + 2

/-- What the host has when it has read some bytes (R91, R98). -/
inductive Received where
  /-- Fewer bytes than the header or its length byte calls for. -/
  | incompleteFrame
  /-- A whole frame. -/
  | frame (bytes : List Byte)
  deriving DecidableEq, Repr

/-- The host's receive rule (R91): the sixth byte gives the frame's length. -/
def receive (stream : List Byte) : Received :=
  match stream[5]? with
  | none => .incompleteFrame
  | some l =>
    if frameLength l ≤ stream.length then .frame (stream.take (frameLength l)) else .incompleteFrame

end Sys2Proof.Machine
end

