-- ==== Sys2Proof/Machine/Sequences.lean ====
section
/-! DEFINITION. The pseudo-instructions (R49, 42_sequences.md): the commands each expands to, and what the host does
with the response that ends it (R87, R88, R89, R97). -/

namespace Sys2Proof.Machine

/-- The inputs that present these commands one after another. -/
def commandInputs (cs : List Instr) : List PortInput := cs.map fun i => .command (encode i)

/-- One `UPD` per byte, in order. -/
def updCommands (message : List Byte) : List Instr := message.map .upd

/-- `SUM B` (R85). -/
def sumCommands (message : List Byte) : List Instr := .clr :: (updCommands message ++ [.rd])

/-- `VERIFY F` (R88); a frame has at least its two trailer bytes. -/
def verifyCommands (frame : List Byte) : Option (List Instr) :=
  match trailerBytes frame with
  | [b0, b1] => some (.clr :: (updCommands (coveredBytes frame) ++ [.chk (untrailer b0 b1)]))
  | _ => none

/-- `VERIFYR F` (R89). -/
def verifyrCommands (frame : List Byte) : List Instr := .clr :: (updCommands frame ++ [.rd])

/-- The end of `APPEND B`: the frame the host emits on the response to `RD`, none when `err = 1` (R87). -/
def appendFrame (message : List Byte) (rw : ResponseWord) : Option (List Byte) :=
  if responseErr rw then none else some (message ++ trailer (responseData rw))

/-- What the host concludes about a received frame (R97). -/
inductive Verdict where
  /-- The trailer is the checksum of the covered bytes. -/
  | trailerCorrect
  /-- The document's `ChecksumMismatch`. -/
  | checksumMismatch
  /-- `err = 1`: the verdict is void, the engine has failed. -/
  | engineFailed
  deriving DecidableEq, Repr

/-- The verdict on the response to the `CHK` of `VERIFY` (R88, R97). -/
def verifyVerdict (rw : ResponseWord) : Verdict :=
  if responseErr rw then .engineFailed
  else if responseMatch rw then .trailerCorrect else .checksumMismatch

/-- The verdict by the host's own comparison after `SUM` of the covered bytes (R88). -/
def compareVerdict (b0 b1 : Byte) (rw : ResponseWord) : Verdict :=
  if responseErr rw then .engineFailed
  else if responseData rw == untrailer b0 b1 then .trailerCorrect else .checksumMismatch

/-- The verdict on the response to the `RD` of `VERIFYR` (R89). -/
def residueVerdict (rw : ResponseWord) : Verdict :=
  if responseErr rw then .engineFailed
  else if responseData rw == 0#16 then .trailerCorrect else .checksumMismatch

end Sys2Proof.Machine
end

