-- ==== Sys2Proof/Machine/Listing.lean ====
section
/-! DEFINITION. The listing syntax of R48: one command a line, the operand in hexadecimal, `;` a comment, `.word` a raw
command word, `RESET` an assertion of the reset input. A line is a list of characters. -/

namespace Sys2Proof.Machine

/-- The hexadecimal digits, value ascending. -/
def hexDigits : List Char := ['0', '1', '2', '3', '4', '5', '6', '7', '8', '9', 'A', 'B', 'C', 'D', 'E', 'F']

/-- One digit of a hexadecimal numeral. -/
def hexDigit (n : BitVec 4) : Char := hexDigits.getD n.toNat '0'

/-- The lowest `k` digits of `n`, most significant first. -/
def hexDigitsOf (n : Nat) : Nat → List Char
  | 0 => []
  | k + 1 => hexDigitsOf (n / 16) k ++ [hexDigit (BitVec.ofNat 4 n)]

/-- A numeral of `k` digits with its `0x` (R8). -/
def hexNumeral (k n : Nat) : List Char := '0' :: 'x' :: hexDigitsOf n k

/-- The value of a digit; lower case letters are read as upper case (DESIGN CHOICE, log entry 7). -/
def hexValue (c : Char) : Option Nat := hexDigits.findIdx? (· == c.toUpper)

/-- The value of a nonempty list of digits, most significant first. -/
def hexNumber (acc : Nat) : List Char → Option Nat
  | [] => some acc
  | c :: rest =>
    match hexValue c with
    | some d => hexNumber (16 * acc + d) rest
    | none => none

/-- An operand `0x...` of at most `width` bits. -/
def parseOperand (width : Nat) (token : List Char) : Option (BitVec width) :=
  match token with
  | '0' :: 'x' :: d :: ds =>
    match hexNumber 0 (d :: ds) with
    | some n => if n < 2 ^ width then some (BitVec.ofNat width n) else none
    | none => none
  | _ => none

/-- The words of a line: the comment is dropped and blanks separate. -/
def tokensOf (line : List Char) : List (List Char) :=
  ((line.takeWhile (· != ';')).splitOnP fun c => c == ' ' || c == '\t').filter fun w => !w.isEmpty

/-- What a line of a listing stands for. -/
inductive ListingLine where
  /-- An empty line or only a comment. -/
  | blank
  /-- A command, a raw word, or reset. -/
  | input (x : PortInput)
  /-- No line of the syntax. -/
  | malformed
  deriving DecidableEq, Repr

/-- A line with an operand, if the operand is in range. -/
def operandLine (x : Option PortInput) : ListingLine :=
  match x with
  | some i => .input i
  | none => .malformed

/-- Reading one line (R48). -/
def parseLine (line : List Char) : ListingLine :=
  match tokensOf line with
  | [] => .blank
  | [['N', 'O', 'P']] => .input (.command (encode .nop))
  | [['C', 'L', 'R']] => .input (.command (encode .clr))
  | [['U', 'P', 'D'], b] => operandLine ((parseOperand 8 b).map fun v => .command (encode (.upd v)))
  | [['R', 'D']] => .input (.command (encode .rd))
  | [['C', 'H', 'K'], t] => operandLine ((parseOperand 16 t).map fun v => .command (encode (.chk v)))
  | [['.', 'w', 'o', 'r', 'd'], w] => operandLine ((parseOperand 20 w).map fun v => .command v)
  | [['R', 'E', 'S', 'E', 'T']] => .input .reset
  | _ => .malformed

/-- A whole listing: the inputs of its lines in order, none if a line is malformed. -/
def assemble : List (List Char) → Option (List PortInput)
  | [] => some []
  | line :: rest =>
    match parseLine line, assemble rest with
    | .blank, some xs => some xs
    | .input x, some xs => some (x :: xs)
    | _, _ => none

/-- A command as a line. -/
def printInstr : Instr → List Char
  | .nop => ['N', 'O', 'P']
  | .clr => ['C', 'L', 'R']
  | .upd b => ['U', 'P', 'D', ' '] ++ hexNumeral 2 b.toNat
  | .rd => ['R', 'D']
  | .chk t => ['C', 'H', 'K', ' '] ++ hexNumeral 4 t.toNat

/-- An input as a line: an illegal word is written raw. -/
def printInput : PortInput → List Char
  | .reset => ['R', 'E', 'S', 'E', 'T']
  | .command cw =>
    match decode cw with
    | .ok i => printInstr i
    | .error _ => ['.', 'w', 'o', 'r', 'd', ' '] ++ hexNumeral 5 cw.toNat

end Sys2Proof.Machine
end

