-- ==== Sys2Proof/Machine/Transition.lean ====
section
/-! DEFINITION. The engine as R70 asks for it, `step : State x CommandWord -> State x ResponseWord` with
`State = (CRC, MATCH, ERR)`, written from the summary of effects (41_commands.md section 3), and a run as its left
fold (R70, R120). The machine's step is held against it. -/

namespace Sys2Proof.Machine

/-- The triple `(CRC, MATCH, ERR)` of R70. -/
structure Regs where
  crc : Word
  matchBit : Bool
  errBit : Bool
  deriving DecidableEq, Repr

/-- The registers of a state. -/
def regsOf (s : State) : Regs := ⟨s.crc, s.matchBit, s.errBit⟩

/-- A state with these registers and everything else as in `s`. -/
def withRegs (r : Regs) (s : State) : State :=
  { s with crc := r.crc, matchBit := r.matchBit, errBit := r.errBit }

/-- One command word on the triple: the two tables of 41_commands.md section 3. -/
def transition (p : Params) (r : Regs) (cw : CommandWord) : Regs × ResponseWord :=
  if r.errBit then (r, packResponse 0#16 r.matchBit true)
  else
    match decode cw with
    | .ok .nop => (r, packResponse 0#16 r.matchBit false)
    | .ok .clr => (⟨p.init, false, false⟩, packResponse 0#16 false false)
    | .ok (.upd b) => (⟨crcStep p r.crc b, false, false⟩, packResponse 0#16 false false)
    | .ok .rd => (r, packResponse r.crc r.matchBit false)
    | .ok (.chk t) => (⟨r.crc, t == r.crc, false⟩, packResponse 0#16 (t == r.crc) false)
    | .error _ => (⟨r.crc, r.matchBit, true⟩, packResponse 0#16 r.matchBit true)

/-- A run over a list of command words: the final triple and the response words in order (R70, R120). -/
def runWords (p : Params) (r : Regs) : List CommandWord → Regs × List ResponseWord
  | [] => (r, [])
  | cw :: rest =>
    let one := transition p r cw
    let more := runWords p one.1 rest
    (more.1, one.2 :: more.2)

end Sys2Proof.Machine
end

