-- ==== Sys2Proof/Safety.lean ====
section
/-! DEFINITION. What counts as a good run (R120), when a response may be used (R117), and the invariant of the
machine that claims use. -/

namespace Sys2Proof

open Sys2Proof.Machine

/-- No response so far had `err = 1` (R120).
R120 does not say what a second reset inside a run means and tells the reader to split the run there.
DESIGN CHOICE (log entry 10): this reads every response since the state the machine was started in, so a later reset input
starts no new run here; the run after it is the one started from `State.resetWith` with the same parameters. -/
abbrev Machine.State.GoodRun (s : State) : Prop := ∀ rw ∈ s.responses, responseErr rw = false

/-- `data` is meaningful only in the response to `RD`, and never when `err = 1` (R117). -/
def dataMeaningful (i : Instr) (rw : ResponseWord) : Bool := i == .rd && !responseErr rw

/-- After these commands, oldest first, a `CHK` is current: no `UPD` and no `CLR` has followed it (R117). -/
def chkCurrent (commands : List Instr) : Bool :=
  commands.foldl (fun current i =>
    match i with
    | .chk _ => true
    | .clr | .upd _ => false
    | .nop | .rd => current) false

/-- The bytes a list of commands absorbs, in order (R92). -/
def absorbedBytes (commands : List Instr) : List Byte :=
  commands.filterMap fun i =>
    match i with
    | .upd b => some b
    | .nop | .clr | .rd | .chk _ => none

/-- The machine goes from `s` to `t` in `k` steps and none of them stops. -/
def runsTo (k : Nat) (s t : State) : Prop := Host.Core.run Sys2Proof.core k s = .next t

/-- How many command words are still to be answered. -/
def pendingWords (s : State) : Nat :=
  s.pending.countP fun x =>
    match x with
    | .command _ => true
    | .reset => false

/-- What the host has been told is true: a set `ERR` and a set `MATCH` show in the latest response, and no response of a
faulted engine carries data (R13, R14, R44, R99). -/
structure FlagsReported (s : State) : Prop where
  err_shown : s.errBit = true →
    ∃ rw, s.responses.getLast? = some rw ∧ responseErr rw = true ∧ responseMatch rw = s.matchBit
  match_shown : s.matchBit = true → ∃ rw, s.responses.getLast? = some rw ∧ responseMatch rw = true
  faulted_no_data : ∀ rw ∈ s.responses, responseErr rw = true → responseData rw = 0#16

end Sys2Proof
end

