-- ==== Sys2Proof/Certificates/Slice0/Obligations.lean ====
section
/-! DEFINITION. The statements about the engine. Each names the rule of spec/ it formalises. They hold for every
parameter record, since every state carries its own, but for those that name `paramsArc` or `paramsMsb`. -/

open Sys2Proof Sys2Proof.Machine

/-! ## Reset -/

/-- R21: after reset `CRC = INIT`, `MATCH = 0`, `ERR = 0` and the table is the parameter: of the reset state for any
parameters, of the machine's own reset state for its parameters, and of the state after the reset input. -/
def Obligations.ResetGivesTheSpecifiedValues : Prop :=
  (∀ p : Params, (State.resetWith p).crc = p.init ∧ (State.resetWith p).matchBit = false ∧
    (State.resetWith p).errBit = false ∧ (State.resetWith p).params = p) ∧
  (State.reset.crc = State.reset.params.init ∧ State.reset.matchBit = false ∧ State.reset.errBit = false) ∧
  (∀ (s : State) (rest : List PortInput), s.pending = .reset :: rest →
    ∃ t, step s = .next t ∧ t.crc = s.params.init ∧ t.matchBit = false ∧ t.errBit = false ∧ t.params = s.params)

/-- R110: the reset input sets the three registers from any state and answers nothing; it leaves the registers a `CLR`
leaves in an unfaulted engine; and it is the only way to clear `ERR`. -/
def Obligations.ResetInputIsTheOnlyWayToClearErr : Prop :=
  (∀ (s : State) (rest : List PortInput), s.pending = .reset :: rest →
    step s = .next { s with crc := s.params.init, matchBit := false, errBit := false, pending := rest }) ∧
  (∀ s : State, s.errBit = false → ∃ t u,
    step { s with pending := [.reset] } = .next t ∧
    step { s with pending := [.command (encode .clr)] } = .next u ∧
    t.params = u.params ∧ t.crc = u.crc ∧ t.matchBit = u.matchBit ∧ t.errBit = u.errBit) ∧
  (∀ s t : State, step s = .next t → s.errBit = true → t.errBit = false → s.pending.head? = some .reset)

/-! ## The five commands -/

/-- R71: the encoding of `NOP`, its response and that it changes nothing else, unfaulted and faulted; the same `op` with
a nonzero operand is illegal. -/
def Obligations.NopAnswersTheFlagsOnly : Prop :=
  (encode .nop).toNat = 0x00000 ∧
  (∀ s : State, s.errBit = false →
    exec .nop s = .next { s with responses := s.responses ++ [packResponse 0#16 s.matchBit false] }) ∧
  (∀ s : State, s.errBit = true →
    exec .nop s = .next { s with responses := s.responses ++ [packResponse 0#16 s.matchBit true] }) ∧
  (∀ cw : CommandWord, opField cw = 0x0#4 → argField cw ≠ 0#16 → isIllegal cw = true)

/-- R72: the encoding of `CLR`, `CRC <- INIT` and `MATCH <- 0` from every unfaulted state; a faulted engine ignores it;
two in a row equal one; followed by `RD` it gives `INIT`. -/
def Obligations.ClrStartsAMessage : Prop :=
  (encode .clr).toNat = 0x10000 ∧
  (∀ s : State, s.errBit = false →
    exec .clr s = .next { s with
      crc := s.params.init, matchBit := false, responses := s.responses ++ [packResponse 0#16 false false] }) ∧
  (∀ s : State, s.errBit = true →
    exec .clr s = .next { s with responses := s.responses ++ [packResponse 0#16 s.matchBit true] }) ∧
  (∀ s : State, s.errBit = false → ∃ t u v, exec .clr s = .next t ∧ exec .clr t = .next u ∧ regsOf u = regsOf t ∧
    exec .rd t = .next v ∧ v.responses = t.responses ++ [packResponse s.params.init false false])

/-- R73: the encoding of `UPD b`; `CRC <- step(CRC, b)` in both forms of R56, `MATCH <- 0`, nothing else, for every byte
and every unfaulted state; a faulted engine ignores it; a nonzero high operand byte is illegal; with `CRC = 0` and
`TABLE[0] = 0` the byte 0 leaves `CRC = 0`. -/
def Obligations.UpdAbsorbsOneByte : Prop :=
  (∀ b : Byte, (encode (.upd b)).toNat = 0x20000 + b.toNat) ∧
  (∀ (s : State) (b : Byte), s.errBit = false →
    exec (.upd b) s = .next { s with
      crc := match s.params.dir with
        | .lsbFirst => (s.crc >>> 8) ^^^ s.params.table.get (s.crc.extractLsb' 0 8 ^^^ b).toFin
        | .msbFirst => (s.crc <<< 8) ^^^ s.params.table.get (s.crc.extractLsb' 8 8 ^^^ b).toFin
      matchBit := false
      responses := s.responses ++ [packResponse 0#16 false false] }) ∧
  (∀ (s : State) (b : Byte), s.errBit = true →
    exec (.upd b) s = .next { s with responses := s.responses ++ [packResponse 0#16 s.matchBit true] }) ∧
  (∀ cw : CommandWord, opField cw = 0x2#4 → argHigh (argField cw) ≠ 0#8 → isIllegal cw = true) ∧
  (∀ s : State, s.errBit = false → s.crc = 0#16 → lookup s.params 0#8 = 0#16 →
    ∃ t, exec (.upd 0#8) s = .next t ∧ t.crc = 0#16)

/-- R74: the encoding of `RD`; the response carries `CRC` and nothing else changes; the two trailer bytes are its low and
then its high byte; a faulted engine answers data 0; the same `op` with a nonzero operand is illegal. -/
def Obligations.RdReturnsTheAccumulator : Prop :=
  (encode .rd).toNat = 0x30000 ∧
  (∀ s : State, s.errBit = false →
    exec .rd s = .next { s with responses := s.responses ++ [packResponse s.crc s.matchBit false] }) ∧
  (∀ (s : State) (m e : Bool), responseData (packResponse s.crc m e) = s.crc ∧
    trailer (responseData (packResponse s.crc m e)) = [s.crc.extractLsb' 0 8, s.crc.extractLsb' 8 8]) ∧
  (∀ s : State, s.errBit = true →
    exec .rd s = .next { s with responses := s.responses ++ [packResponse 0#16 s.matchBit true] }) ∧
  (∀ cw : CommandWord, opField cw = 0x3#4 → argField cw ≠ 0#16 → isIllegal cw = true)

/-- R75: the encoding of `CHK t`; `MATCH` becomes 1 exactly when all 16 bits of `t` and `CRC` agree, the response shows
the new `MATCH`, nothing else changes and no fault arises; the operand from two trailer bytes has the first one low; a
faulted engine ignores it. -/
def Obligations.ChkComparesAllSixteenBits : Prop :=
  (∀ t : Word, (encode (.chk t)).toNat = 0x40000 + t.toNat) ∧
  (∀ (s : State) (t : Word), s.errBit = false →
    exec (.chk t) s = .next { s with
      matchBit := decide (t = s.crc)
      responses := s.responses ++ [packResponse 0#16 (decide (t = s.crc)) false] }) ∧
  (∀ b0 b1 : Byte, (untrailer b0 b1).toNat = b1.toNat * 256 + b0.toNat) ∧
  (∀ (s : State) (t : Word), s.errBit = true →
    exec (.chk t) s = .next { s with responses := s.responses ++ [packResponse 0#16 s.matchBit true] })

/-- The frame of the five commands (41_commands.md section 3; R11, R17, R31): every command answers a next state with one
more response; the parameters, every table entry, the port's other inputs and `ERR` stay; `CRC` stays but for `CLR` and
`UPD`; `MATCH` stays for `NOP` and `RD`; in a faulted engine all registers stay. -/
def Obligations.CommandsChangeOnlyWhatTheyName : Prop :=
  ∀ (i : Instr) (s : State), ∃ t rw, exec i s = .next t ∧
    t.responses = s.responses ++ [rw] ∧ t.params = s.params ∧
    (∀ k : Byte, lookup t.params k = lookup s.params k) ∧
    t.pending = s.pending ∧ t.errBit = s.errBit ∧
    (i ≠ .clr → (∀ b, i ≠ .upd b) → t.crc = s.crc) ∧
    (i = .nop ∨ i = .rd → t.matchBit = s.matchBit) ∧
    (s.errBit = true → t.crc = s.crc ∧ t.matchBit = s.matchBit)

/-- 20_memory.md section 4: on the registers `NOP`, `CLR`, `RD` and `CHK` (with one operand) are idempotent, `NOP` and
`RD` change none, and `UPD` is not idempotent. -/
def Obligations.AllCommandsButUpdAreIdempotent : Prop :=
  (∀ (i : Instr) (s : State), (∀ b, i ≠ .upd b) →
    ∃ t u, exec i s = .next t ∧ exec i t = .next u ∧ regsOf u = regsOf t) ∧
  (∀ (i : Instr) (s : State), i = .nop ∨ i = .rd → ∃ t, exec i s = .next t ∧ regsOf t = regsOf s) ∧
  (∃ (b : Byte) (s t u : State), exec (.upd b) s = .next t ∧ exec (.upd b) t = .next u ∧ regsOf u ≠ regsOf t)

/-! ## The step and the ports -/

/-- R34, R70: with a word at the head of the command port that decodes to a command, a step is that command's meaning on
the state with the word taken from the port. -/
def Obligations.StepRunsTheDecodedCommand : Prop :=
  ∀ (s : State) (cw : CommandWord) (rest : List PortInput) (i : Instr),
    s.pending = .command cw :: rest → decode cw = .ok i → step s = exec i { s with pending := rest }

/-- 60_exceptions.md section 9 and 70_reset_and_hazards.md section 5: with nothing presented the engine holds its state.
That such a moment is a step at all is the model's choice (log entry 6). -/
def Obligations.IdleEngineHoldsItsState : Prop :=
  ∀ s : State, s.pending = [] → step s = .next s

/-- 70_reset_and_hazards.md section 5: the engine never stops by itself: every step from every state answers a next state,
and a presented input is gone after it. -/
def Obligations.EveryStepAnswersANextState : Prop :=
  ∀ s : State, ∃ t, step s = .next t ∧ t.pending = s.pending.tail

/-- R44: every command word, legal or illegal, faulted or not, gives exactly one response, after all earlier ones, with
the flags after the command in bits 17 and 16 and in bits 15..0 `CRC` for `RD` in an unfaulted engine, else 0. -/
def Obligations.EachCommandWordGetsOneResponse : Prop :=
  ∀ (s : State) (cw : CommandWord) (rest : List PortInput), s.pending = .command cw :: rest →
    ∃ t rw, step s = .next t ∧ t.responses = s.responses ++ [rw] ∧
      rw.getLsbD 17 = t.errBit ∧ rw.getLsbD 16 = t.matchBit ∧
      (s.errBit = false → decode cw = .ok .rd → rw.extractLsb' 0 16 = s.crc) ∧
      (s.errBit = true ∨ decode cw ≠ .ok .rd → rw.extractLsb' 0 16 = 0#16)

/-- 30_encoding.md section 3 and 10_state.md section 5: the bits of a response word, the fields read back from it, and
`STATUS` in bits 17 and 16. -/
def Obligations.ResponseWordHasTheFieldsInPlace : Prop :=
  ∀ (data : Word) (matched err : Bool),
    (packResponse data matched err).toNat = err.toNat * 2 ^ 17 + matched.toNat * 2 ^ 16 + data.toNat ∧
    responseErr (packResponse data matched err) = err ∧
    responseMatch (packResponse data matched err) = matched ∧
    responseData (packResponse data matched err) = data ∧
    responseStatus (packResponse data matched err) = statusOf matched err ∧
    (statusOf matched err).toNat = err.toNat * 2 + matched.toNat

/-- R44 over any step: the responses given and the command words still to come are together as many as before. -/
def Obligations.ResponsesPlusPendingWordsIsConstant : Prop :=
  ∀ (n : Nat) (s t : State), s.responses.length + pendingWords s = n → step s = .next t →
    t.responses.length + pendingWords t = n

/-- R19: the response to a word and the registers after it depend on `(CRC, MATCH, ERR)`, the word and the parameters
alone, not on what was answered before or waits behind it. -/
def Obligations.NoHiddenState : Prop :=
  ∀ (s u : State) (cw : CommandWord) (rest rest' : List PortInput),
    s.params = u.params → regsOf s = regsOf u →
    s.pending = .command cw :: rest → u.pending = .command cw :: rest' →
    ∃ t v rw, step s = .next t ∧ step u = .next v ∧ regsOf t = regsOf v ∧
      t.responses = s.responses ++ [rw] ∧ v.responses = u.responses ++ [rw]

/-- R70: the machine's run over any list of command words is the left fold of the transition on `(CRC, MATCH, ERR)`, one
response a word and in order; everything else stays. -/
def Obligations.MachineRefinesTheTransitionFold : Prop :=
  ∀ (s : State) (cws : List CommandWord) (rest : List PortInput),
    s.pending = cws.map .command ++ rest →
    runsTo cws.length s
      { s with
        crc := (runWords s.params (regsOf s) cws).1.crc
        matchBit := (runWords s.params (regsOf s) cws).1.matchBit
        errBit := (runWords s.params (regsOf s) cws).1.errBit
        pending := rest
        responses := s.responses ++ (runWords s.params (regsOf s) cws).2 }

/-- 70_reset_and_hazards.md section 3: where a response's data is not meaningful (another command than `RD`, or
`err = 1`) it is 0. -/
def Obligations.MeaninglessDataIsZero : Prop :=
  ∀ (i : Instr) (s t : State) (rw : ResponseWord), exec i s = .next t → t.responses = s.responses ++ [rw] →
    dataMeaningful i rw = false → responseData rw = 0#16

/-- 10_state.md section 7 and 20_memory.md section 10: no step of any kind changes the configuration or a table entry. -/
def Obligations.ConfigurationNeverChanges : Prop :=
  ∀ s t : State, step s = .next t → t.params = s.params ∧ ∀ i : Byte, lookup t.params i = lookup s.params i

/-- 70_reset_and_hazards.md section 5: a run from reset, with no second reset in it, is good exactly when every word of it
is legal. -/
def Obligations.GoodRunsAreTheLegalOnes : Prop :=
  ∀ (p : Params) (cws : List CommandWord) (t : State),
    runsTo cws.length (present (cws.map .command) (State.resetWith p)) t →
    (t.GoodRun ↔ ∀ cw ∈ cws, isIllegal cw = false)

/-! ## The flags -/

/-- R13: what every step does to `MATCH`; its copy in bit 16 of every response; and that nothing else in the engine
depends on it. -/
def Obligations.MatchFollowsItsRule : Prop :=
  (∀ s t : State, step s = .next t → t.matchBit =
    match s.pending with
    | [] => s.matchBit
    | .reset :: _ => false
    | .command cw :: _ =>
      if s.errBit then s.matchBit
      else
        match decode cw with
        | .ok .clr => false
        | .ok (.upd _) => false
        | .ok (.chk x) => decide (x = s.crc)
        | .ok .nop => s.matchBit
        | .ok .rd => s.matchBit
        | .error _ => s.matchBit) ∧
  (∀ (s t : State) (cw : CommandWord) (rest : List PortInput), s.pending = .command cw :: rest → step s = .next t →
    ∃ rw, t.responses = s.responses ++ [rw] ∧ rw.getLsbD 16 = t.matchBit) ∧
  (∀ (s t u : State) (m : Bool), step s = .next t → step { s with matchBit := m } = .next u →
    t.crc = u.crc ∧ t.errBit = u.errBit)

/-- 10_state.md section 4 and 70_reset_and_hazards.md section 3: after any commands from an unfaulted state with
`MATCH = 0`, a set `MATCH` means that a `CHK` of the present accumulator was handled and only `NOP` and `RD` since. -/
def Obligations.ASetMatchComesFromACurrentChk : Prop :=
  ∀ (s t : State) (commands : List Instr) (rest : List PortInput),
    s.errBit = false → s.matchBit = false → s.pending = commandInputs commands ++ rest →
    runsTo commands.length s t → t.matchBit = true →
    chkCurrent commands = true ∧
    ∃ before after, commands = before ++ .chk t.crc :: after ∧ ∀ i ∈ after, i = .nop ∨ i = .rd

/-- R14: `ERR` after any step: set by an illegal word and only so, kept by everything but reset; a faulted engine changes
no register and answers data 0 with the held `MATCH`; `ERR` is copied into bit 17. -/
def Obligations.ErrIsStickyAndSetByIllegalWords : Prop :=
  (∀ s t : State, step s = .next t →
    (t.errBit = true ↔ (s.errBit = true ∧ s.pending.head? ≠ some .reset) ∨
      ∃ cw, s.pending.head? = some (.command cw) ∧ isIllegal cw = true)) ∧
  (∀ (s : State) (cw : CommandWord) (rest : List PortInput), s.pending = .command cw :: rest → s.errBit = true →
    step s = .next { s with
      pending := rest, responses := s.responses ++ [packResponse 0#16 s.matchBit true] }) ∧
  (∀ (s t : State) (cw : CommandWord) (rest : List PortInput), s.pending = .command cw :: rest → step s = .next t →
    ∃ rw, t.responses = s.responses ++ [rw] ∧ rw.getLsbD 17 = t.errBit)

/-- R99: taking `IllegalCommand`: in an unfaulted engine an illegal word sets `ERR`, keeps `CRC` and `MATCH` and answers
data 0, the held `MATCH` and `err = 1`; from then on every word changes no register and is answered so, until reset. -/
def Obligations.IllegalWordEntersTheFaultedState : Prop :=
  (∀ (s : State) (cw : CommandWord) (rest : List PortInput),
    s.pending = .command cw :: rest → s.errBit = false → isIllegal cw = true →
    step s = .next { s with
      errBit := true, pending := rest, responses := s.responses ++ [packResponse 0#16 s.matchBit true] }) ∧
  (∀ (s : State) (cws : List CommandWord) (rest : List PortInput),
    s.pending = cws.map .command ++ rest → s.errBit = true →
    runsTo cws.length s { s with
      pending := rest
      responses := s.responses ++ List.replicate cws.length (packResponse 0#16 s.matchBit true) })

/-- Every step keeps what the host has been told true: a set `ERR` and a set `MATCH` show in the latest response and no
response of a faulted engine carries data (10_state.md section 4, 30_encoding.md section 3, 60_exceptions.md section 4). -/
def Obligations.StepKeepsFlagsReported : Prop :=
  ∀ s t : State, FlagsReported s → step s = .next t → FlagsReported t

/-- The invariant of `StepKeepsFlagsReported` holds right after reset, for any parameters and with any inputs presented. -/
def Obligations.ResetMeetsFlagsReported : Prop :=
  FlagsReported State.reset ∧
  ∀ (p : Params) (inputs : List PortInput), FlagsReported (present inputs (State.resetWith p))

/-! ## Encoding -/

/-- R50: decoding is the pseudocode, encoding is the formulas, and the two are inverse on every command and every legal
word. -/
def Obligations.DecodeAndEncodeAreInverse : Prop :=
  (∀ cw : CommandWord, (decode cw).toOption =
    if cw.extractLsb' 16 4 = 0x0#4 ∧ cw.extractLsb' 0 16 = 0#16 then some .nop
    else if cw.extractLsb' 16 4 = 0x1#4 ∧ cw.extractLsb' 0 16 = 0#16 then some .clr
    else if cw.extractLsb' 16 4 = 0x2#4 ∧ cw.extractLsb' 8 8 = 0#8 then some (.upd (cw.extractLsb' 0 8))
    else if cw.extractLsb' 16 4 = 0x3#4 ∧ cw.extractLsb' 0 16 = 0#16 then some .rd
    else if cw.extractLsb' 16 4 = 0x4#4 then some (.chk (cw.extractLsb' 0 16))
    else none) ∧
  ((encode .nop).toNat = 0x00000 ∧ (encode .clr).toNat = 0x10000 ∧
    (∀ b : Byte, (encode (.upd b)).toNat = 0x20000 + b.toNat) ∧ (encode .rd).toNat = 0x30000 ∧
    ∀ t : Word, (encode (.chk t)).toNat = 0x40000 + t.toNat) ∧
  (∀ i : Instr, decode (encode i) = .ok i) ∧
  (∀ (cw : CommandWord) (i : Instr), decode cw = .ok i → encode i = cw)

/-- 30_encoding.md section 2: the words written out from the spec's patterns decode to their commands, and one of each
kind of illegal word to nothing. -/
def Obligations.WrittenWordsDecode : Prop :=
  decode 0b00000000000000000000#20 = .ok .nop ∧ decode 0b00010000000000000000#20 = .ok .clr ∧
  decode 0b00100000000010110100#20 = .ok (.upd 0xB4#8) ∧ decode 0b00110000000000000000#20 = .ok .rd ∧
  decode 0b01001111101011010011#20 = .ok (.chk 0xFAD3#16) ∧
  isIllegal 0x00001#20 = true ∧ isIllegal 0x10001#20 = true ∧ isIllegal 0x20100#20 = true ∧
  isIllegal 0x38000#20 = true ∧ isIllegal 0x50000#20 = true

/-- 30_encoding.md section 2: a word that decodes to a command is selected by that command's match/mask row and by no
other, and an illegal word by none. -/
def Obligations.MatchMaskRowsAgreeWithDecode : Prop :=
  (∀ (cw : CommandWord) (i : Instr), decode cw = .ok i →
    (opRows.filter fun r => rowSelects r cw).map OpRow.mnemonic = [mnemonicOf i]) ∧
  (∀ cw : CommandWord, isIllegal cw = true → opRows.filter (fun r => rowSelects r cw) = [])

/-- R45: the illegal words are exactly the clauses (a) to (e); 65795 words are legal and 982781 illegal; an illegal word
sets `ERR`, changes no other register, and leaves the engine faulted until reset. -/
def Obligations.IllegalWordsAreTheFiveClauses : Prop :=
  (∀ cw : CommandWord, isIllegal cw = true ↔
    5 ≤ (opField cw).toNat ∨
    (opField cw = 0x0#4 ∧ argField cw ≠ 0#16) ∨ (opField cw = 0x1#4 ∧ argField cw ≠ 0#16) ∨
    (opField cw = 0x2#4 ∧ argHigh (argField cw) ≠ 0#8) ∨ (opField cw = 0x3#4 ∧ argField cw ≠ 0#16)) ∧
  Nat.card { cw : CommandWord // isIllegal cw = false } = 65795 ∧
  Nat.card { cw : CommandWord // isIllegal cw = true } = 982781 ∧
  (∀ (s : State) (cw : CommandWord) (rest : List PortInput), s.pending = .command cw :: rest → isIllegal cw = true →
    ∃ t, step s = .next t ∧ t.errBit = true ∧ t.crc = s.crc ∧ t.matchBit = s.matchBit ∧ t.params = s.params) ∧
  (∀ s t : State, s.errBit = true → step s = .next t → s.pending.head? ≠ some .reset → t.errBit = true)

/-! ## The checksum function -/

/-- R56: the two forms of the step function, with the shifts spelled by their bytes. -/
def Obligations.StepFunctionHasTheTwoForms : Prop :=
  (∀ (p : Params) (c : Word) (b : Byte), p.dir = .lsbFirst →
    crcStep p c b = (0#8 ++ c.extractLsb' 8 8) ^^^ p.table.get (c.extractLsb' 0 8 ^^^ b).toFin) ∧
  (∀ (p : Params) (c : Word) (b : Byte), p.dir = .msbFirst →
    crcStep p c b = (c.extractLsb' 0 8 ++ 0#8) ^^^ p.table.get (c.extractLsb' 8 8 ^^^ b).toFin)

/-- 40_crc_function.md section 3: the checksum of the empty message, of one byte in both forms, and of a concatenation;
and the document's two-byte value. -/
def Obligations.ChecksumLawsForAnyParameters : Prop :=
  (∀ p : Params, checksum16 p [] = p.init) ∧
  (∀ (p : Params) (b : Byte), p.dir = .lsbFirst →
    checksum16 p [b] = (p.init >>> 8) ^^^ p.table.get (p.init.extractLsb' 0 8 ^^^ b).toFin) ∧
  (∀ (p : Params) (b : Byte), p.dir = .msbFirst →
    checksum16 p [b] = (p.init <<< 8) ^^^ p.table.get (p.init.extractLsb' 8 8 ^^^ b).toFin) ∧
  (∀ (p : Params) (a b : List Byte), checksum16 p (a ++ b) = b.foldl (crcStep p) (checksum16 p a)) ∧
  (∀ (p : Params) (b : List Byte),
    checksum p b = [(checksum16 p b).extractLsb' 0 8, (checksum16 p b).extractLsb' 8 8])

/-- R27: the trailer is low byte first, so the byte before the last of a frame is the low byte; `untrailer` inverts it. -/
def Obligations.TrailerIsLowByteFirst : Prop :=
  (∀ v : Word, trailer v = [v.extractLsb' 0 8, v.extractLsb' 8 8]) ∧
  (∀ (b : List Byte) (v : Word),
    (b ++ trailer v)[(b ++ trailer v).length - 2]? = some (v.extractLsb' 0 8) ∧
    (b ++ trailer v)[(b ++ trailer v).length - 1]? = some (v.extractLsb' 8 8)) ∧
  (∀ b0 b1 : Byte, (untrailer b0 b1).extractLsb' 0 8 = b0 ∧ (untrailer b0 b1).extractLsb' 8 8 = b1 ∧
    trailer (untrailer b0 b1) = [b0, b1]) ∧
  (∀ v : Word, untrailer (v.extractLsb' 0 8) (v.extractLsb' 8 8) = v)

/-- 40_crc_function.md section 4 (R62; the spec marks these numbers as general knowledge, log entry 2): the printed
`TABLE_ARC` is what the loop generates, and the published check value comes out. -/
def Obligations.PrintedArcTableIsTheGeneratedOne : Prop :=
  (∀ i : Byte, paramsArc.table.get i.toFin = arcEntry i) ∧
  checksum16 paramsArc [0x31#8, 0x32#8, 0x33#8, 0x34#8, 0x35#8, 0x36#8, 0x37#8, 0x38#8, 0x39#8] = 0xBB3D#16

/-- R64 (general knowledge, log entry 2): `TABLE_ARC` has the properties `T0`, `LIN`, `INJ` and `HI0`, and `TABLE_MSB`
has `T0`, `LIN` and `INJ`. -/
def Obligations.NamedTablesHaveTheNamedProperties : Prop :=
  TableT0 paramsArc ∧ TableLIN paramsArc ∧ TableINJ paramsArc ∧ TableHI0 paramsArc ∧
  TableT0 paramsMsb ∧ TableLIN paramsMsb ∧ TableINJ paramsMsb

/-- 40_crc_function.md section 4 (R65; general knowledge, log entry 2): for `LSB_FIRST` tables with `LIN` and `HI0`, the
default instance among them, changing one byte of a message always changes its checksum. -/
def Obligations.SingleByteCorruptionChangesTheChecksum : Prop :=
  (∀ p : Params, p.dir = .lsbFirst → TableLIN p → TableHI0 p →
    ∀ (before after : List Byte) (b b' : Byte), b ≠ b' →
      checksum16 p (before ++ b :: after) ≠ checksum16 p (before ++ b' :: after)) ∧
  (∀ (before after : List Byte) (b b' : Byte), b ≠ b' →
    checksum16 paramsArc (before ++ b :: after) ≠ checksum16 paramsArc (before ++ b' :: after))

/-! ## Whole messages -/

/-- R85: `SUM B` on an unfaulted engine, whatever the state before it: `data = checksum16(B)` in the last response, the
registers `(checksum16(B), 0, 0)`; without the `CLR` the same from the registers reset leaves; and the document's 2-byte
value is the trailer of the data. -/
def Obligations.SumReturnsTheChecksum : Prop :=
  (∀ (s : State) (message : List Byte) (rest : List PortInput), s.errBit = false →
    s.pending = commandInputs (sumCommands message) ++ rest →
    runsTo (message.length + 2) s
      { s with
        crc := message.foldl (crcStep s.params) s.params.init
        matchBit := false
        pending := rest
        responses := s.responses ++ List.replicate (message.length + 1) (packResponse 0#16 false false) ++
          [packResponse (message.foldl (crcStep s.params) s.params.init) false false] }) ∧
  (∀ (s : State) (message : List Byte) (rest : List PortInput),
    s.errBit = false → s.crc = s.params.init → s.matchBit = false →
    s.pending = commandInputs (updCommands message ++ [.rd]) ++ rest →
    runsTo (message.length + 1) s
      { s with
        crc := message.foldl (crcStep s.params) s.params.init
        pending := rest
        responses := s.responses ++ List.replicate message.length (packResponse 0#16 false false) ++
          [packResponse (message.foldl (crcStep s.params) s.params.init) false false] }) ∧
  (∀ (p : Params) (message : List Byte), checksum p message =
    trailer (responseData (packResponse (message.foldl (crcStep p) p.init) false false)))

/-- 42_sequences.md section 2: delays and the commands `NOP`, `RD` and `CHK` between the bytes of a message do not change
the result; the accumulator after any commands without `CLR` is the fold over the absorbed bytes. That a delay is a step
which answers the same state (the first clause) is the model's deduction from R106 and R120 (DEDUCED, log entry 6). -/
def Obligations.OnlyAbsorbedBytesMoveTheAccumulator : Prop :=
  (∀ s : State, s.pending = [] → step s = .next s) ∧
  (∀ (s : State) (commands : List Instr) (rest : List PortInput),
    s.errBit = false → Instr.clr ∉ commands → s.pending = commandInputs commands ++ rest →
    ∃ t, runsTo commands.length s t ∧ t.errBit = false ∧ t.pending = rest ∧ t.params = s.params ∧
      t.crc = (absorbedBytes commands).foldl (crcStep s.params) s.crc)

/-- R88: `VERIFY` of a frame with covered bytes `C` and trailer `b0 b1`: its commands; on an unfaulted engine the last
response has `err = 0` and `match = 1` exactly when `b0` is the low and `b1` the high byte of the checksum of `C`; the host's
verdict is `ChecksumMismatch` exactly when `match = 0`, and agrees with its own comparison after `SUM C`. -/
def Obligations.VerifyDecidesTheTrailer : Prop :=
  ∀ (covered : List Byte) (b0 b1 : Byte) (s : State) (rest : List PortInput),
    verifyCommands (covered ++ [b0, b1]) = some (.clr :: (covered.map .upd ++ [.chk (b1 ++ b0)])) ∧
    (s.errBit = false → s.pending = commandInputs (.clr :: (covered.map .upd ++ [.chk (b1 ++ b0)])) ++ rest →
      ∃ t rw, runsTo (covered.length + 2) s t ∧ t.pending = rest ∧ t.errBit = false ∧
        t.crc = checksum16 s.params covered ∧ t.responses.getLast? = some rw ∧ responseErr rw = false ∧
        (responseMatch rw = true ↔
          b0 = (checksum16 s.params covered).extractLsb' 0 8 ∧ b1 = (checksum16 s.params covered).extractLsb' 8 8) ∧
        (verifyVerdict rw = .checksumMismatch ↔ responseMatch rw = false) ∧
        compareVerdict b0 b1 (packResponse (checksum16 s.params covered) false false) = verifyVerdict rw)

/-- 42_sequences.md section 3 (R87): the host emits the message and the checksum's bytes, low byte first, from the response
to the `RD` of `SUM`, and nothing when `err = 1`. -/
def Obligations.AppendEmitsMessageAndTrailer : Prop :=
  (∀ (message : List Byte) (v : Word) (m : Bool),
    appendFrame message (packResponse v m false) = some (message ++ [v.extractLsb' 0 8, v.extractLsb' 8 8])) ∧
  (∀ (message : List Byte) (rw : ResponseWord), rw.getLsbD 17 = true → appendFrame message rw = none)

/-- R93: for every message and all parameters the frame `APPEND` produces passes `VERIFY`. -/
def Obligations.AppendedFramePassesVerify : Prop :=
  ∀ (s : State) (message : List Byte) (rest : List PortInput), s.errBit = false →
    ∃ frame commands,
      appendFrame message (packResponse (checksum16 s.params message) false false) = some frame ∧
      frame = message ++ trailer (checksum16 s.params message) ∧
      verifyCommands frame = some commands ∧
      (s.pending = commandInputs commands ++ rest →
        ∃ t rw, runsTo commands.length s t ∧ t.responses.getLast? = some rw ∧ responseMatch rw = true ∧
          responseErr rw = false ∧ verifyVerdict rw = .trailerCorrect ∧ t.crc = checksum16 s.params message)

/-- 42_sequences.md section 4 (R89): the check by residue: (a) under `LSB_FIRST` and `T0` a correct frame leaves 0; (b) with `HI0` only a correct one
does; (c) under `MSB_FIRST` neither direction holds in general; `PARAMS_ARC` meets the conditions; `MATCH` ends 0. The
clauses on `paramsMsb` and `paramsArc` rest on tables that are general knowledge (PRESUMED, log entry 2). -/
def Obligations.ResidueCheckUnderItsConditions : Prop :=
  (∀ (s : State) (covered : List Byte) (b0 b1 : Byte) (rest : List PortInput), s.errBit = false →
    s.pending = commandInputs (verifyrCommands (covered ++ [b0, b1])) ++ rest →
    ∃ t rw, runsTo (covered.length + 4) s t ∧ t.responses.getLast? = some rw ∧ t.matchBit = false ∧
      responseErr rw = false ∧
      (s.params.dir = .lsbFirst → TableT0 s.params → [b0, b1] = checksum s.params covered →
        responseData rw = 0#16) ∧
      (s.params.dir = .lsbFirst → TableT0 s.params → TableHI0 s.params → responseData rw = 0#16 →
        [b0, b1] = checksum s.params covered)) ∧
  (paramsMsb.dir = .msbFirst ∧
    (∃ covered, checksum16 paramsMsb (covered ++ checksum paramsMsb covered) ≠ 0#16) ∧
    (∃ covered b0 b1, [b0, b1] ≠ checksum paramsMsb covered ∧ checksum16 paramsMsb (covered ++ [b0, b1]) = 0#16)) ∧
  (paramsArc.dir = .lsbFirst ∧ TableT0 paramsArc ∧ TableHI0 paramsArc)

/-- 60_exceptions.md section 1 (R97): the verdict is `ChecksumMismatch` exactly on `err = 0` and `match = 0`, and void on
`err = 1`; a mismatch leaves the engine unfaulted and ready for the next `CLR`. -/
def Obligations.MismatchIsAVerdictNotAFault : Prop :=
  (∀ rw : ResponseWord,
    (verifyVerdict rw = .checksumMismatch ↔ rw.getLsbD 17 = false ∧ rw.getLsbD 16 = false) ∧
    (verifyVerdict rw = .engineFailed ↔ rw.getLsbD 17 = true)) ∧
  (∀ (s : State) (x : Word), s.errBit = false → x ≠ s.crc →
    ∃ t u, exec (.chk x) s = .next t ∧ t.errBit = false ∧ t.matchBit = false ∧
      exec .clr t = .next u ∧ regsOf u = ⟨s.params.init, false, false⟩)

/-- 42_sequences.md section 4 (R89, its last paragraph for all parameters that meet its conditions): under `LSB_FIRST`, `T0`
and `HI0` the host's verdict from `VERIFYR` of a frame is its verdict from `VERIFY` of the same frame, on any two unfaulted
engines with the same parameters. The properties are hypotheses here, so no table is presumed. -/
def Obligations.ResidueVerdictIsTheVerifyVerdict : Prop :=
  ∀ (s u : State) (covered : List Byte) (b0 b1 : Byte) (commands : List Instr) (rest rest' : List PortInput),
    s.errBit = false → u.errBit = false → u.params = s.params →
    s.params.dir = .lsbFirst → TableT0 s.params → TableHI0 s.params →
    s.pending = commandInputs (verifyrCommands (covered ++ [b0, b1])) ++ rest →
    verifyCommands (covered ++ [b0, b1]) = some commands → u.pending = commandInputs commands ++ rest' →
    ∃ t v rw rw', runsTo (covered.length + 4) s t ∧ t.responses.getLast? = some rw ∧
      runsTo commands.length u v ∧ v.responses.getLast? = some rw' ∧ residueVerdict rw = verifyVerdict rw'

/-- R114: without `CLR` the result is the fold from the accumulator as it was; after a message `A` it is the checksum of
the two messages run together. -/
def Obligations.MissingClrRunsMessagesTogether : Prop :=
  ∀ (s : State) (message : List Byte) (rest : List PortInput), s.errBit = false →
    s.pending = commandInputs (updCommands message ++ [.rd]) ++ rest →
    ∃ t rw, runsTo (message.length + 1) s t ∧ t.responses.getLast? = some rw ∧ responseErr rw = false ∧
      responseData rw = message.foldl (crcStep s.params) s.crc ∧
      ∀ earlier : List Byte, s.crc = checksum16 s.params earlier →
        responseData rw = checksum16 s.params (earlier ++ message)

/-- 42_sequences.md section 1 (R86, R91; conflict C1): a received frame has `L + 8` bytes, its first `L + 6` are covered and
the last two are the trailer; with fewer bytes it is incomplete; a frame has 8 to 263 bytes. That the frame is the first
`L + 8` bytes of a longer stream and that fewer than six bytes are incomplete is the model's deduction (DEDUCED, log
entry 8). -/
def Obligations.ReceivedFrameHasItsBounds : Prop :=
  (∀ (stream : List Byte) (l : Byte), stream[5]? = some l → l.toNat + 8 ≤ stream.length →
    ∃ frame, receive stream = .frame frame ∧ frame.length = l.toNat + 8 ∧
      coveredBytes frame = stream.take (l.toNat + 6) ∧
      trailerBytes frame = (stream.drop (l.toNat + 6)).take 2) ∧
  (∀ (stream : List Byte) (l : Byte), stream[5]? = some l → stream.length < l.toNat + 8 →
    receive stream = .incompleteFrame) ∧
  (∀ stream : List Byte, stream.length < 6 → receive stream = .incompleteFrame) ∧
  (∀ l : Byte, 8 ≤ frameLength l ∧ frameLength l ≤ 263)

/-! ## The listing syntax -/

/-- 30_encoding.md section 7: every input printed as a line reads back as that input: each command with every operand, each
illegal word as a raw word, and reset. -/
def Obligations.PrintedLinesReadBack : Prop :=
  ∀ x : PortInput, parseLine (printInput x) = .input x
end

