-- ==== Sys2Proof/Laws/Decode.lean ====
section
/-! SUPPORT. The fields of a command word and the words of the fields. -/

namespace Sys2Proof

/-- One bit of the word of two fields. -/
theorem ofFields_getLsbD (f : CmdFields) (i : Nat) :
    (ofFields f).getLsbD i = if i < 16 then f.arg.getLsbD i else f.op.getLsbD (i - 16) :=
  BitVec.getLsbD_append

@[simp] theorem opField_ofFields (f : CmdFields) : opField (ofFields f) = f.op := by
  apply BitVec.eq_of_getLsbD_eq
  intro i hi
  simp [opField, ofFields_getLsbD, hi]

@[simp] theorem argField_ofFields (f : CmdFields) : argField (ofFields f) = f.arg := by
  apply BitVec.eq_of_getLsbD_eq
  intro i hi
  simp [argField, ofFields_getLsbD, hi]

/-- A command word is its two fields. -/
theorem ofFields_fields (cw : CommandWord) : ofFields ⟨opField cw, argField cw⟩ = cw := by
  apply BitVec.eq_of_getLsbD_eq
  intro i hi
  rw [ofFields_getLsbD]
  by_cases low : i < 16
  · simp [low, argField]
  · have place : i - 16 < 4 := by omega
    have back : 16 + (i - 16) = i := by omega
    simp [low, opField, place, back]

end Sys2Proof
end

