-- ==== Sys2Proof/Laws/State.lean ====
section
/-! SUPPORT. One lemma per field per register update, so that no later proof unfolds a record update. -/

namespace Sys2Proof.Machine

@[simp] theorem setCrc_params (v : Word) (s : State) : (setCrc v s).params = s.params := rfl
@[simp] theorem setCrc_crc (v : Word) (s : State) : (setCrc v s).crc = v := rfl
@[simp] theorem setCrc_matchBit (v : Word) (s : State) : (setCrc v s).matchBit = s.matchBit := rfl
@[simp] theorem setCrc_errBit (v : Word) (s : State) : (setCrc v s).errBit = s.errBit := rfl
@[simp] theorem setCrc_pending (v : Word) (s : State) : (setCrc v s).pending = s.pending := rfl
@[simp] theorem setCrc_responses (v : Word) (s : State) : (setCrc v s).responses = s.responses := rfl

@[simp] theorem setMatch_params (m : Bool) (s : State) : (setMatch m s).params = s.params := rfl
@[simp] theorem setMatch_crc (m : Bool) (s : State) : (setMatch m s).crc = s.crc := rfl
@[simp] theorem setMatch_matchBit (m : Bool) (s : State) : (setMatch m s).matchBit = m := rfl
@[simp] theorem setMatch_errBit (m : Bool) (s : State) : (setMatch m s).errBit = s.errBit := rfl
@[simp] theorem setMatch_pending (m : Bool) (s : State) : (setMatch m s).pending = s.pending := rfl
@[simp] theorem setMatch_responses (m : Bool) (s : State) : (setMatch m s).responses = s.responses := rfl

@[simp] theorem setErr_params (e : Bool) (s : State) : (setErr e s).params = s.params := rfl
@[simp] theorem setErr_crc (e : Bool) (s : State) : (setErr e s).crc = s.crc := rfl
@[simp] theorem setErr_matchBit (e : Bool) (s : State) : (setErr e s).matchBit = s.matchBit := rfl
@[simp] theorem setErr_errBit (e : Bool) (s : State) : (setErr e s).errBit = e := rfl
@[simp] theorem setErr_pending (e : Bool) (s : State) : (setErr e s).pending = s.pending := rfl
@[simp] theorem setErr_responses (e : Bool) (s : State) : (setErr e s).responses = s.responses := rfl

@[simp] theorem setPending_params (xs : List PortInput) (s : State) : (setPending xs s).params = s.params := rfl
@[simp] theorem setPending_crc (xs : List PortInput) (s : State) : (setPending xs s).crc = s.crc := rfl
@[simp] theorem setPending_matchBit (xs : List PortInput) (s : State) : (setPending xs s).matchBit = s.matchBit := rfl
@[simp] theorem setPending_errBit (xs : List PortInput) (s : State) : (setPending xs s).errBit = s.errBit := rfl
@[simp] theorem setPending_pending (xs : List PortInput) (s : State) : (setPending xs s).pending = xs := rfl
@[simp] theorem setPending_responses (xs : List PortInput) (s : State) : (setPending xs s).responses = s.responses := rfl

@[simp] theorem emit_params (rw : ResponseWord) (s : State) : (emit rw s).params = s.params := rfl
@[simp] theorem emit_crc (rw : ResponseWord) (s : State) : (emit rw s).crc = s.crc := rfl
@[simp] theorem emit_matchBit (rw : ResponseWord) (s : State) : (emit rw s).matchBit = s.matchBit := rfl
@[simp] theorem emit_errBit (rw : ResponseWord) (s : State) : (emit rw s).errBit = s.errBit := rfl
@[simp] theorem emit_pending (rw : ResponseWord) (s : State) : (emit rw s).pending = s.pending := rfl
@[simp] theorem emit_responses (rw : ResponseWord) (s : State) : (emit rw s).responses = s.responses ++ [rw] := rfl

@[simp] theorem resetWith_params (p : Params) : (State.resetWith p).params = p := rfl
@[simp] theorem resetWith_crc (p : Params) : (State.resetWith p).crc = p.init := rfl
@[simp] theorem resetWith_matchBit (p : Params) : (State.resetWith p).matchBit = false := rfl
@[simp] theorem resetWith_errBit (p : Params) : (State.resetWith p).errBit = false := rfl
@[simp] theorem resetWith_pending (p : Params) : (State.resetWith p).pending = [] := rfl
@[simp] theorem resetWith_responses (p : Params) : (State.resetWith p).responses = [] := rfl

@[simp] theorem withRegs_params (r : Regs) (s : State) : (withRegs r s).params = s.params := rfl
@[simp] theorem withRegs_crc (r : Regs) (s : State) : (withRegs r s).crc = r.crc := rfl
@[simp] theorem withRegs_matchBit (r : Regs) (s : State) : (withRegs r s).matchBit = r.matchBit := rfl
@[simp] theorem withRegs_errBit (r : Regs) (s : State) : (withRegs r s).errBit = r.errBit := rfl
@[simp] theorem withRegs_pending (r : Regs) (s : State) : (withRegs r s).pending = s.pending := rfl
@[simp] theorem withRegs_responses (r : Regs) (s : State) : (withRegs r s).responses = s.responses := rfl

@[simp] theorem regsOf_withRegs (r : Regs) (s : State) : regsOf (withRegs r s) = r := rfl

theorem State.ext_fields {s t : State} (hp : s.params = t.params) (hc : s.crc = t.crc) (hm : s.matchBit = t.matchBit)
    (he : s.errBit = t.errBit) (hq : s.pending = t.pending) (hr : s.responses = t.responses) : s = t := by
  cases s; cases t; simp_all

end Sys2Proof.Machine
end

