-- ==== Sys2Proof/Laws/Ops.lean ====
section
/-! SUPPORT. Everything the shared operations can do: one lemma per field, and the two cases of the gate. -/

namespace Sys2Proof.Machine

@[simp] theorem respond_params (data : Word) (s : State) : (respond data s).params = s.params := rfl
@[simp] theorem respond_crc (data : Word) (s : State) : (respond data s).crc = s.crc := rfl
@[simp] theorem respond_matchBit (data : Word) (s : State) : (respond data s).matchBit = s.matchBit := rfl
@[simp] theorem respond_errBit (data : Word) (s : State) : (respond data s).errBit = s.errBit := rfl
@[simp] theorem respond_pending (data : Word) (s : State) : (respond data s).pending = s.pending := rfl
@[simp] theorem respond_responses (data : Word) (s : State) : (respond data s).responses = s.responses ++ [packResponse data s.matchBit s.errBit] := rfl

@[simp] theorem raise_params (f : Fault) (s : State) : (raise f s).params = s.params := by cases f; rfl
@[simp] theorem raise_crc (f : Fault) (s : State) : (raise f s).crc = s.crc := by cases f; rfl
@[simp] theorem raise_matchBit (f : Fault) (s : State) : (raise f s).matchBit = s.matchBit := by cases f; rfl
@[simp] theorem raise_errBit (f : Fault) (s : State) : (raise f s).errBit = true := by cases f; rfl
@[simp] theorem raise_pending (f : Fault) (s : State) : (raise f s).pending = s.pending := by cases f; rfl
@[simp] theorem raise_responses (f : Fault) (s : State) : (raise f s).responses = s.responses ++ [packResponse 0#16 s.matchBit true] := by cases f; rfl

@[simp] theorem applyReset_params (s : State) : (applyReset s).params = s.params := rfl
@[simp] theorem applyReset_crc (s : State) : (applyReset s).crc = s.params.init := rfl
@[simp] theorem applyReset_matchBit (s : State) : (applyReset s).matchBit = false := rfl
@[simp] theorem applyReset_errBit (s : State) : (applyReset s).errBit = false := rfl
@[simp] theorem applyReset_pending (s : State) : (applyReset s).pending = s.pending := rfl
@[simp] theorem applyReset_responses (s : State) : (applyReset s).responses = s.responses := rfl

@[simp] theorem absorbByte_params (b : Byte) (s : State) : (absorbByte b s).params = s.params := rfl
@[simp] theorem absorbByte_crc (b : Byte) (s : State) : (absorbByte b s).crc = crcStep s.params s.crc b := rfl
@[simp] theorem absorbByte_matchBit (b : Byte) (s : State) : (absorbByte b s).matchBit = s.matchBit := rfl
@[simp] theorem absorbByte_errBit (b : Byte) (s : State) : (absorbByte b s).errBit = s.errBit := rfl
@[simp] theorem absorbByte_pending (b : Byte) (s : State) : (absorbByte b s).pending = s.pending := rfl
@[simp] theorem absorbByte_responses (b : Byte) (s : State) : (absorbByte b s).responses = s.responses := rfl

@[simp] theorem present_params (xs : List PortInput) (s : State) : (present xs s).params = s.params := rfl
@[simp] theorem present_crc (xs : List PortInput) (s : State) : (present xs s).crc = s.crc := rfl
@[simp] theorem present_matchBit (xs : List PortInput) (s : State) : (present xs s).matchBit = s.matchBit := rfl
@[simp] theorem present_errBit (xs : List PortInput) (s : State) : (present xs s).errBit = s.errBit := rfl
@[simp] theorem present_pending (xs : List PortInput) (s : State) : (present xs s).pending = s.pending ++ xs := rfl
@[simp] theorem present_responses (xs : List PortInput) (s : State) : (present xs s).responses = s.responses := rfl

@[simp] theorem presentNext_params (x : PortInput) (s : State) : (presentNext x s).params = s.params := rfl
@[simp] theorem presentNext_crc (x : PortInput) (s : State) : (presentNext x s).crc = s.crc := rfl
@[simp] theorem presentNext_matchBit (x : PortInput) (s : State) : (presentNext x s).matchBit = s.matchBit := rfl
@[simp] theorem presentNext_errBit (x : PortInput) (s : State) : (presentNext x s).errBit = s.errBit := rfl
@[simp] theorem presentNext_pending (x : PortInput) (s : State) : (presentNext x s).pending = x :: s.pending := rfl
@[simp] theorem presentNext_responses (x : PortInput) (s : State) : (presentNext x s).responses = s.responses := rfl

theorem whenUnfaulted_faulted {perform : State → State} {s : State} (h : s.errBit = true) :
    whenUnfaulted perform s = respond 0#16 s := by simp [whenUnfaulted, h]

theorem whenUnfaulted_unfaulted {perform : State → State} {s : State} (h : s.errBit = false) :
    whenUnfaulted perform s = perform s := by simp [whenUnfaulted, h]

/-- A step takes the oldest input and lets it take effect on the rest. -/
theorem step_of_pending {s : State} {x : PortInput} {rest : List PortInput} (h : s.pending = x :: rest) :
    step s = accept x (setPending rest s) := by simp [step, h]

/-- A step with nothing presented is idle. -/
theorem step_of_nothing {s : State} (h : s.pending = []) : step s = idle s := by simp [step, h]

/-- One bit of a response word. -/
theorem packResponse_getLsbD (data : Word) (m e : Bool) (i : Nat) :
    (packResponse data m e).getLsbD i =
      if i < 16 then data.getLsbD i
      else if i - 16 < 1 then (BitVec.ofBool m).getLsbD (i - 16) else (BitVec.ofBool e).getLsbD (i - 16 - 1) := by
  have flags : ∀ k, (BitVec.ofBool e ++ BitVec.ofBool m).getLsbD k =
      if k < 1 then (BitVec.ofBool m).getLsbD k else (BitVec.ofBool e).getLsbD (k - 1) := fun k =>
    BitVec.getLsbD_append
  exact BitVec.getLsbD_append.trans (by rw [flags])

/-- The response word's fields are the ones it was packed from. -/
@[simp] theorem responseErr_packResponse (data : Word) (m e : Bool) : responseErr (packResponse data m e) = e := by
  rw [responseErr, packResponse_getLsbD]
  simp

@[simp] theorem responseMatch_packResponse (data : Word) (m e : Bool) : responseMatch (packResponse data m e) = m := by
  rw [responseMatch, packResponse_getLsbD]
  simp

@[simp] theorem responseData_packResponse (data : Word) (m e : Bool) : responseData (packResponse data m e) = data := by
  apply BitVec.eq_of_getLsbD_eq
  intro i hi
  simp [responseData, packResponse_getLsbD, hi]

end Sys2Proof.Machine
end

