-- ==== Sys2Proof/Laws/Run.lean ====
section
/-! SUPPORT. Runs of several steps: how the host's `run` unfolds over this machine. -/

namespace Sys2Proof.Machine

/-- One step and then the rest, for any machine of the host's interface. -/
theorem core_run_of_next {M : Host.Core} {k : Nat} {s t : M.State} (h : M.step s = .next t) :
    M.run (k + 1) s = M.run k t := by
  rw [Host.Core.run, h]

/-- A run of any machine that goes on past its first step has a next state there. -/
theorem core_run_cases {M : Host.Core} {k : Nat} {s t : M.State} (h : M.run (k + 1) s = .next t) :
    ∃ u, M.step s = .next u ∧ M.run k u = .next t := by
  rw [Host.Core.run] at h
  cases hs : M.step s with
  | next u => rw [hs] at h; exact ⟨u, rfl, h⟩
  | fault r => rw [hs] at h; cases h
  | refused r => rw [hs] at h; cases h

theorem run_zero (s : State) : Host.Core.run Sys2Proof.core 0 s = .next s := rfl

theorem run_succ_of_next {k : Nat} {s t : State} (h : step s = .next t) :
    Host.Core.run Sys2Proof.core (k + 1) s = Host.Core.run Sys2Proof.core k t :=
  core_run_of_next (M := Sys2Proof.core) h

theorem run_succ_cases {k : Nat} {s t : State} (h : Host.Core.run Sys2Proof.core (k + 1) s = .next t) :
    ∃ u, step s = .next u ∧ Host.Core.run Sys2Proof.core k u = .next t :=
  core_run_cases (M := Sys2Proof.core) h

theorem run_add_of_next {m n : Nat} {s t : State} (h : Host.Core.run Sys2Proof.core m s = .next t) :
    Host.Core.run Sys2Proof.core (m + n) s = Host.Core.run Sys2Proof.core n t := by
  induction m generalizing s with
  | zero =>
    rw [run_zero] at h
    cases h
    simp
  | succ m ih =>
    obtain ⟨u, hu, rest⟩ := run_succ_cases h
    rw [show m + 1 + n = (m + n) + 1 by omega, run_succ_of_next hu]
    exact ih rest

theorem runsTo_zero {s t : State} : runsTo 0 s t ↔ s = t := by
  refine ⟨fun h => ?_, fun h => ?_⟩
  · rw [runsTo, run_zero] at h
    cases h
    rfl
  · rw [runsTo, run_zero, h]

theorem runsTo_succ {k : Nat} {s t u : State} (h : step s = .next u) : runsTo (k + 1) s t ↔ runsTo k u t := by
  unfold runsTo
  rw [run_succ_of_next h]

theorem runsTo_succ_cases {k : Nat} {s t : State} (h : runsTo (k + 1) s t) : ∃ u, step s = .next u ∧ runsTo k u t :=
  run_succ_cases h

theorem runsTo_add {m n : Nat} {s u t : State} (first : runsTo m s u) : runsTo (m + n) s t ↔ runsTo n u t := by
  unfold runsTo
  rw [run_add_of_next first]

/-- A run ends in one state only. -/
theorem runsTo_unique {k : Nat} {s t u : State} (ht : runsTo k s t) (hu : runsTo k s u) : t = u := by
  unfold runsTo at ht hu
  rw [ht] at hu
  cases hu
  rfl

end Sys2Proof.Machine
end

