-- ==== Sys2Proof/Laws/Execute.lean ====
section
/-! SUPPORT. Everything a step can do, said once: one command word is the transition on the registers and one more
response (R70), reset sets the registers, and an idle step does nothing. -/

namespace Sys2Proof.Machine

/-- The effect of one command word on the whole state. -/
def afterWord (cw : CommandWord) (s : State) : State :=
  emit (transition s.params (regsOf s) cw).2 (withRegs (transition s.params (regsOf s) cw).1 s)

@[simp] theorem regsOf_crc (s : State) : (regsOf s).crc = s.crc := rfl

@[simp] theorem regsOf_matchBit (s : State) : (regsOf s).matchBit = s.matchBit := rfl

@[simp] theorem regsOf_errBit (s : State) : (regsOf s).errBit = s.errBit := rfl

@[simp] theorem regsOf_setPending (xs : List PortInput) (s : State) : regsOf (setPending xs s) = regsOf s := rfl

@[simp] theorem afterWord_params (cw : CommandWord) (s : State) : (afterWord cw s).params = s.params := rfl

@[simp] theorem afterWord_crc (cw : CommandWord) (s : State) :
    (afterWord cw s).crc = (transition s.params (regsOf s) cw).1.crc := rfl

@[simp] theorem afterWord_matchBit (cw : CommandWord) (s : State) :
    (afterWord cw s).matchBit = (transition s.params (regsOf s) cw).1.matchBit := rfl

@[simp] theorem afterWord_errBit (cw : CommandWord) (s : State) :
    (afterWord cw s).errBit = (transition s.params (regsOf s) cw).1.errBit := rfl

@[simp] theorem afterWord_pending (cw : CommandWord) (s : State) : (afterWord cw s).pending = s.pending := rfl

@[simp] theorem afterWord_responses (cw : CommandWord) (s : State) :
    (afterWord cw s).responses = s.responses ++ [(transition s.params (regsOf s) cw).2] := rfl

@[simp] theorem regsOf_afterWord (cw : CommandWord) (s : State) :
    regsOf (afterWord cw s) = (transition s.params (regsOf s) cw).1 := rfl

/-- The common execution rule is the transition, for every word and every state. -/
theorem execute_eq (cw : CommandWord) (s : State) : execute cw s = .next (afterWord cw s) := by
  obtain ⟨p, c, m, e, q, r⟩ := s
  cases e with
  | true =>
    cases hd : decode cw with
    | error why => simp [execute, hd, illegalWord, whenUnfaulted, afterWord, transition, regsOf, respond, emit, withRegs]
    | ok i =>
      cases i <;>
        simp [execute, hd, exec, execNop, execClr, execUpd, execRd, execChk, whenUnfaulted, afterWord, transition,
          regsOf, respond, emit, withRegs]
  | false =>
    cases hd : decode cw with
    | error why =>
      simp [execute, hd, illegalWord, whenUnfaulted, raise, setErr, afterWord, transition, regsOf, respond, emit, withRegs]
    | ok i =>
      cases i <;>
        simp [execute, hd, exec, execNop, execClr, execUpd, execRd, execChk, whenUnfaulted, afterWord, transition,
          regsOf, respond, emit, withRegs, setCrc, setMatch, absorbByte, matchAfterChk]

theorem step_command {s : State} {cw : CommandWord} {rest : List PortInput} (h : s.pending = .command cw :: rest) :
    step s = .next (afterWord cw (setPending rest s)) := by
  rw [step_of_pending h]
  exact execute_eq cw _

theorem step_reset {s : State} {rest : List PortInput} (h : s.pending = .reset :: rest) :
    step s = .next (applyReset (setPending rest s)) := step_of_pending h

theorem step_idle {s : State} (h : s.pending = []) : step s = .next s := step_of_nothing h

/-- If a step answers `t`, one of these three cases holds. -/
theorem step_cases {s t : State} (h : step s = .next t) :
    (s.pending = [] ∧ t = s) ∨
    (∃ rest, s.pending = .reset :: rest ∧ t = applyReset (setPending rest s)) ∨
    (∃ cw rest, s.pending = .command cw :: rest ∧ t = afterWord cw (setPending rest s)) := by
  cases hp : s.pending with
  | nil =>
    rw [step_idle hp] at h
    cases h
    exact .inl ⟨rfl, rfl⟩
  | cons x rest =>
    cases x with
    | reset =>
      rw [step_reset hp] at h
      cases h
      exact .inr (.inl ⟨rest, rfl, rfl⟩)
    | command cw =>
      rw [step_command hp] at h
      cases h
      exact .inr (.inr ⟨cw, rest, rfl, rfl⟩)

end Sys2Proof.Machine
end

