-- ==== Sys2Proof/Laws/PerInstr.lean ====
section
/-! SUPPORT. Facts about every command as syntax, one lemma per constructor. -/

namespace Sys2Proof.Laws.FieldsAreLegal

/-- The command's fields pass the checks of R41 and R42, whatever its operand. -/
def Statement (i : Instr) : Prop := i.WellFormed

theorem nop : Statement .nop := rfl

theorem clr : Statement .clr := rfl

theorem upd (b : Byte) : Statement (.upd b) := by
  have high : (0#8 ++ b).extractLsb' 8 8 = 0#8 := by
    apply BitVec.eq_of_getLsbD_eq
    intro i hi
    have bits : ∀ k, (0#8 ++ b).getLsbD k = if k < 8 then b.getLsbD k else (0#8).getLsbD (k - 8) := fun k =>
      BitVec.getLsbD_append
    simp [bits]
  simpa [Statement, Instr.WellFormed, CmdFields.wf, Instr.fields] using high

theorem rd : Statement .rd := rfl

theorem chk (t : Word) : Statement (.chk t) := rfl

end Sys2Proof.Laws.FieldsAreLegal
end

