-- ==== Sys2Proof/Tests/Slice0.lean ====
section
/-! SUPPORT. The model's own tests: small facts with values from 95_test_vectors.md, and for every statement with
hypotheses a witness that meets them. -/

namespace Sys2Proof.Tests

open Sys2Proof Sys2Proof.Machine

/-- A state with these registers, these inputs waiting and nothing answered. -/
def stateWith (p : Params) (c : Word) (m e : Bool) (inputs : List PortInput) : State :=
  { params := p, crc := c, matchBit := m, errBit := e, pending := inputs, responses := [] }

/-- What can be seen after a step: the registers and the responses; none if the step stops. -/
def seen (o : Host.Outcome State Fault Refusal) : Option (Word × Bool × Bool × List ResponseWord) :=
  match o with
  | .next t => some (t.crc, t.matchBit, t.errBit, t.responses)
  | .fault _ => none
  | .refused _ => none

/-! ## Well-formedness: one ill-formed term for each check -/

theorem test_wf_refuses_reserved_op : CmdFields.wf ⟨0x5#4, 0#16⟩ = false := by decide

theorem test_wf_refuses_nop_operand : CmdFields.wf ⟨0x0#4, 0x0001#16⟩ = false := by decide

theorem test_wf_refuses_clr_operand : CmdFields.wf ⟨0x1#4, 0x0001#16⟩ = false := by decide

theorem test_wf_refuses_upd_high_byte : CmdFields.wf ⟨0x2#4, 0x0100#16⟩ = false := by decide

theorem test_wf_refuses_rd_operand : CmdFields.wf ⟨0x3#4, 0x8000#16⟩ = false := by decide

theorem test_wf_accepts_chk_operand : CmdFields.wf ⟨0x4#4, 0xFFFF#16⟩ = true := by decide

/-! ## Decoding: the words of R42's patterns written out, and E1 to E17 -/

theorem test_decode_nop : decode 0b0000_0000_0000_0000_0000#20 = .ok .nop := rfl

theorem test_decode_clr : decode 0b0001_0000_0000_0000_0000#20 = .ok .clr := rfl

theorem test_decode_upd : decode 0b0010_0000_0000_1011_0100#20 = .ok (.upd 0xB4#8) := rfl

theorem test_decode_rd : decode 0b0011_0000_0000_0000_0000#20 = .ok .rd := rfl

theorem test_decode_chk : decode 0b0100_1111_1010_1101_0011#20 = .ok (.chk 0xFAD3#16) := rfl

theorem test_decode_upd_ends : decode 0x20000#20 = .ok (.upd 0x00#8) ∧ decode 0x200FF#20 = .ok (.upd 0xFF#8) := ⟨rfl, rfl⟩

theorem test_decode_chk_ends : decode 0x40000#20 = .ok (.chk 0x0000#16) ∧ decode 0x4FFFF#20 = .ok (.chk 0xFFFF#16) :=
  ⟨rfl, rfl⟩

theorem test_decode_illegal_words :
    [0x00001#20, 0x10001#20, 0x20100#20, 0x2FFFF#20, 0x30001#20, 0x38000#20, 0x50000#20, 0xF0000#20, 0xFFFFF#20].all
      isIllegal = true := by decide

theorem test_decode_names_the_clause :
    decode 0x00001#20 = .error .nopOperand ∧ decode 0x10001#20 = .error .clrOperand ∧
      decode 0x20100#20 = .error .updOperand ∧ decode 0x30001#20 = .error .rdOperand ∧
      decode 0x50000#20 = .error .reservedOp := ⟨rfl, rfl, rfl, rfl, rfl⟩

theorem test_encode_words :
    encode .nop = 0x00000#20 ∧ encode .clr = 0x10000#20 ∧ encode (.upd 0xB4#8) = 0x200B4#20 ∧
      encode .rd = 0x30000#20 ∧ encode (.chk 0xFAD3#16) = 0x4FAD3#20 := by decide

theorem test_table_words :
    decodeTableWord 24 0x200FF = some (.upd 0xFF#8) ∧ decodeTableWord 24 0x50000 = none ∧
      decodeTableWord 24 0x100000 = none := by decide

/-! ## One step of each command (the worked examples of R71 to R75 and the vectors of section 4) -/

theorem test_nop_example :
    seen (exec .nop (stateWith paramsArc 0xFAD3#16 true false [])) = some (0xFAD3#16, true, false, [0x10000#18]) := by
  decide

theorem test_clr_example :
    seen (exec .clr (stateWith paramsArc 0x70EF#16 true false [])) = some (0x0000#16, false, false, [0x00000#18]) := by
  decide

theorem test_upd_lsb :
    seen (exec (.upd 0x56#8) (stateWith paramsArc 0x1234#16 true false [])) =
      some (0xE993#16, false, false, [0x00000#18]) := by decide

theorem test_upd_msb_truncates :
    seen (exec (.upd 0x56#8) (stateWith paramsMsb 0x1234#16 true false [])) =
      some (0x3598#16, false, false, [0x00000#18]) := by decide +kernel

theorem test_rd_example :
    seen (exec .rd (stateWith paramsArc 0xFAD3#16 false false [])) = some (0xFAD3#16, false, false, [0x0FAD3#18]) := by
  decide

theorem test_rd_faulted :
    seen (exec .rd (stateWith paramsArc 0x5180#16 false true [])) = some (0x5180#16, false, true, [0x20000#18]) := by
  decide

theorem test_chk_equal :
    seen (exec (.chk 0x9650#16) (stateWith paramsArc 0x9650#16 false false [])) =
      some (0x9650#16, true, false, [0x10000#18]) := by decide

theorem test_chk_wrong_byte_order :
    seen (exec (.chk 0x5096#16) (stateWith paramsArc 0x9650#16 true false [])) =
      some (0x9650#16, false, false, [0x00000#18]) := by decide

/-! ## The step: the fault, the faulted state, reset and the idle engine (P5) -/

theorem test_step_illegal_word :
    seen (step (stateWith paramsArc 0x5180#16 false false [.command 0x50000#20])) =
      some (0x5180#16, false, true, [0x20000#18]) := by decide

theorem test_step_faulted_ignores_clr :
    seen (step (stateWith paramsArc 0x5180#16 true true [.command 0x10000#20])) =
      some (0x5180#16, true, true, [0x30000#18]) := by decide

theorem test_step_reset_recovers :
    seen (step (stateWith paramsArc 0x5180#16 true true [.reset])) = some (0x0000#16, false, false, []) := by decide

theorem test_step_idle :
    seen (step (stateWith paramsArc 0x5180#16 true false [])) = some (0x5180#16, true, false, []) := by decide

theorem test_first_command_after_reset :
    seen (step (State.reset.withFetchWord 24 0x20001)) = some (0xC0C1#16, false, false, [0x00000#18]) := by decide

/-! ## The function and the sequences (sections 5 and 6) -/

theorem test_checksum_fr1 :
    checksum paramsArc [0x01#8, 0x02#8, 0x03#8, 0x01#8, 0xB4#8, 0x04#8, 0x01#8, 0x0A#8, 0x00#8, 0x00#8] =
      [0xD3#8, 0xFA#8] := by decide

theorem test_check_value_nonzero_init :
    checksum16 { paramsArc with init := 0xFFFF#16 }
      [0x31#8, 0x32#8, 0x33#8, 0x34#8, 0x35#8, 0x36#8, 0x37#8, 0x38#8, 0x39#8] = 0x4B37#16 := by decide

theorem test_check_value_msb :
    checksum16 paramsMsb [0x31#8, 0x32#8, 0x33#8, 0x34#8, 0x35#8, 0x36#8, 0x37#8, 0x38#8, 0x39#8] = 0xFEE8#16 := by
  decide +kernel

theorem test_msb_residue_is_not_zero :
    absorb paramsMsb 0xFEE8#16 [0xE8#8, 0xFE#8] = 0x7474#16 := by decide +kernel

theorem test_table_msb_printed_entries :
    ((List.range 16).map fun n => lookup paramsMsb (BitVec.ofNat 8 n)) =
      [0x0000#16, 0x8005#16, 0x800F#16, 0x000A#16, 0x801B#16, 0x001E#16, 0x0014#16, 0x8011#16,
       0x8033#16, 0x0036#16, 0x003C#16, 0x8039#16, 0x0028#16, 0x802D#16, 0x8027#16, 0x0022#16] ∧
    lookup paramsMsb 0x80#8 = 0x8303#16 ∧ lookup paramsMsb 0xFF#8 = 0x0202#16 := by decide +kernel

theorem test_verify_commands :
    verifyCommands [0x03#8, 0x01#8, 0x50#8, 0x96#8] = some [.clr, .upd 0x03#8, .upd 0x01#8, .chk 0x9650#16] := by decide

theorem test_verify_needs_two_bytes : verifyCommands [0x03#8] = none := by decide

theorem test_receive_bounds :
    receive [1#8, 2#8, 3#8, 1#8, 180#8, 0#8, 7#8, 8#8, 9#8] = .frame [1#8, 2#8, 3#8, 1#8, 180#8, 0#8, 7#8, 8#8] ∧
      receive [1#8, 2#8, 3#8, 1#8, 180#8, 1#8, 7#8, 8#8] = .incompleteFrame := by decide

/-! ## The listing syntax (R48) -/

theorem test_listing_upd :
    parseLine ['U', 'P', 'D', ' ', '0', 'x', 'B', '4', ' ', ';', ' ', 'o', 'n', 'e'] =
      .input (.command 0x200B4#20) := by decide

theorem test_listing_raw_word :
    parseLine ['.', 'w', 'o', 'r', 'd', ' ', '0', 'x', '5', 'A', 'B', 'C', 'D'] = .input (.command 0x5ABCD#20) := by decide

theorem test_listing_refuses_wide_operand :
    parseLine ['U', 'P', 'D', ' ', '0', 'x', '1', '0', '0'] = .malformed := by decide

theorem test_listing_print_chk :
    printInput (.command 0x4FAD3#20) = ['C', 'H', 'K', ' ', '0', 'x', 'F', 'A', 'D', '3'] := by decide

theorem test_listing_assemble :
    assemble [['C', 'L', 'R'], [';', 'x'], ['R', 'E', 'S', 'E', 'T'], ['R', 'D']] =
      some [.command 0x10000#20, .reset, .command 0x30000#20] := by decide

/-! ## Witnesses: the hypotheses of each statement hold together somewhere -/

/-- An unfaulted state, `MATCH = 1`, with these inputs. -/
def okState (inputs : List PortInput) : State := stateWith paramsArc 0x9650#16 true false inputs

/-- A faulted state with these inputs. -/
def faultedState (inputs : List PortInput) : State := stateWith paramsArc 0x5180#16 true true inputs

theorem witness_ResetGivesTheSpecifiedValues : (faultedState [.reset]).pending = .reset :: [] := rfl

theorem witness_ResetInputIsTheOnlyWayToClearErr :
    (faultedState [.reset]).pending = .reset :: [] ∧ (okState []).errBit = false ∧
      ∃ t, step (faultedState [.reset]) = .next t ∧ (faultedState [.reset]).errBit = true ∧ t.errBit = false :=
  ⟨rfl, rfl, _, rfl, rfl, rfl⟩

theorem witness_NopAnswersTheFlagsOnly :
    (okState []).errBit = false ∧ (faultedState []).errBit = true ∧
      opField 0x00001#20 = 0x0#4 ∧ argField 0x00001#20 ≠ 0#16 := ⟨rfl, rfl, rfl, by decide⟩

theorem witness_ClrStartsAMessage : (okState []).errBit = false ∧ (faultedState []).errBit = true := ⟨rfl, rfl⟩

theorem witness_UpdAbsorbsOneByte :
    (okState []).errBit = false ∧ (faultedState []).errBit = true ∧
      opField 0x20100#20 = 0x2#4 ∧ argHigh (argField 0x20100#20) ≠ 0#8 ∧
      (State.resetWith paramsArc).errBit = false ∧ (State.resetWith paramsArc).crc = 0#16 ∧
      lookup (State.resetWith paramsArc).params 0#8 = 0#16 :=
  ⟨rfl, rfl, rfl, by decide, rfl, rfl, by decide⟩

theorem witness_RdReturnsTheAccumulator :
    (okState []).errBit = false ∧ (faultedState []).errBit = true ∧
      opField 0x38000#20 = 0x3#4 ∧ argField 0x38000#20 ≠ 0#16 := ⟨rfl, rfl, rfl, by decide⟩

theorem witness_ChkComparesAllSixteenBits : (okState []).errBit = false ∧ (faultedState []).errBit = true := ⟨rfl, rfl⟩

theorem witness_CommandsChangeOnlyWhatTheyName :
    (Instr.chk 0#16 ≠ .clr ∧ ∀ b, Instr.chk 0#16 ≠ .upd b) ∧ (Instr.rd = .nop ∨ Instr.rd = .rd) ∧
      (faultedState []).errBit = true := ⟨⟨by decide, fun _ h => by cases h⟩, .inr rfl, rfl⟩

theorem witness_AllCommandsButUpdAreIdempotent :
    (∀ b, Instr.clr ≠ .upd b) ∧ (Instr.nop = .nop ∨ Instr.nop = .rd) := ⟨(fun _ h => by cases h), .inl rfl⟩

theorem witness_StepRunsTheDecodedCommand :
    (okState [.command 0x20001#20]).pending = .command 0x20001#20 :: [] ∧ decode 0x20001#20 = .ok (.upd 1#8) := ⟨rfl, rfl⟩

theorem witness_IdleEngineHoldsItsState : (okState []).pending = [] := rfl

theorem witness_EachCommandWordGetsOneResponse :
    (okState [.command 0x30000#20]).pending = .command 0x30000#20 :: [] ∧
      (okState []).errBit = false ∧ decode 0x30000#20 = .ok .rd ∧
      ((faultedState []).errBit = true ∨ decode 0x30000#20 ≠ .ok .rd) := ⟨rfl, rfl, rfl, .inl rfl⟩

theorem witness_ResponsesPlusPendingWordsIsConstant :
    ∃ t, (okState [.command 0x30000#20]).responses.length + pendingWords (okState [.command 0x30000#20]) = 1 ∧
      step (okState [.command 0x30000#20]) = .next t := ⟨_, rfl, rfl⟩

theorem witness_NoHiddenState :
    (okState [.command 0x30000#20]).params = (okState [.command 0x30000#20, .reset]).params ∧
      regsOf (okState [.command 0x30000#20]) = regsOf (okState [.command 0x30000#20, .reset]) ∧
      (okState [.command 0x30000#20]).pending = .command 0x30000#20 :: [] ∧
      (okState [.command 0x30000#20, .reset]).pending = .command 0x30000#20 :: [.reset] := ⟨rfl, rfl, rfl, rfl⟩

theorem witness_MachineRefinesTheTransitionFold :
    (okState [.command 0x20001#20, .command 0x50000#20, .reset]).pending =
      [0x20001#20, 0x50000#20].map .command ++ [.reset] := rfl

theorem witness_MeaninglessDataIsZero :
    ∃ t, exec .nop (okState []) = .next t ∧ t.responses = (okState []).responses ++ [0x10000#18] ∧
      dataMeaningful .nop 0x10000#18 = false := ⟨_, rfl, rfl, by decide⟩

theorem witness_ConfigurationNeverChanges : ∃ t, step (okState [.command 0x20001#20]) = .next t := ⟨_, rfl⟩

theorem witness_GoodRunsAreTheLegalOnes :
    (∃ t, runsTo [0x30000#20].length (present ([0x30000#20].map .command) (State.resetWith paramsArc)) t) ∧
      isIllegal 0x30000#20 = false := ⟨⟨_, rfl⟩, by decide⟩

theorem witness_MatchFollowsItsRule :
    ∃ t u, (okState [.command 0x30000#20]).pending = .command 0x30000#20 :: [] ∧
      step (okState [.command 0x30000#20]) = .next t ∧
      step { okState [.command 0x30000#20] with matchBit := false } = .next u := ⟨_, _, rfl, rfl, rfl⟩

theorem witness_ASetMatchComesFromACurrentChk :
    ∃ t, (stateWith paramsArc 0x9650#16 false false (commandInputs [.chk 0x9650#16])).errBit = false ∧
      (stateWith paramsArc 0x9650#16 false false (commandInputs [.chk 0x9650#16])).matchBit = false ∧
      (stateWith paramsArc 0x9650#16 false false (commandInputs [.chk 0x9650#16])).pending =
        commandInputs [.chk 0x9650#16] ++ [] ∧
      runsTo [Instr.chk 0x9650#16].length
        (stateWith paramsArc 0x9650#16 false false (commandInputs [.chk 0x9650#16])) t ∧
      t.matchBit = true := ⟨_, rfl, rfl, rfl, rfl, rfl⟩

theorem witness_ErrIsStickyAndSetByIllegalWords :
    ∃ t, (faultedState [.command 0x10000#20]).pending = .command 0x10000#20 :: [] ∧
      (faultedState [.command 0x10000#20]).errBit = true ∧ step (faultedState [.command 0x10000#20]) = .next t :=
  ⟨_, rfl, rfl, rfl⟩

theorem witness_IllegalWordEntersTheFaultedState :
    ((okState [.command 0x50000#20]).pending = .command 0x50000#20 :: [] ∧ (okState []).errBit = false ∧
      isIllegal 0x50000#20 = true) ∧
    ((faultedState [.command 0x30000#20]).pending = [0x30000#20].map .command ++ [] ∧
      (faultedState []).errBit = true) := ⟨⟨rfl, rfl, by decide⟩, rfl, rfl⟩

theorem witness_StepKeepsFlagsReported :
    ∃ t, FlagsReported (stateWith paramsArc 0x9650#16 false false [.command 0x49650#20]) ∧
      step (stateWith paramsArc 0x9650#16 false false [.command 0x49650#20]) = .next t :=
  ⟨_, ⟨(fun h => by cases h), (fun h => by cases h), (fun _ h => by cases h)⟩, rfl⟩

/-- The invariant also holds where both flags are set and shown. -/
theorem witness_FlagsReported_with_both_flags_set :
    FlagsReported { faultedState [] with responses := [0x30000#18] } where
  err_shown _ := ⟨0x30000#18, rfl, by decide, by decide⟩
  match_shown _ := ⟨0x30000#18, rfl, by decide⟩
  faulted_no_data rw h _ := by
    obtain rfl := List.mem_singleton.1 h
    decide

theorem witness_DecodeAndEncodeAreInverse : decode 0x4FAD3#20 = .ok (.chk 0xFAD3#16) := rfl

theorem witness_MatchMaskRowsAgreeWithDecode :
    decode 0x200FF#20 = .ok (.upd 0xFF#8) ∧ isIllegal 0x20100#20 = true := ⟨rfl, by decide⟩

theorem witness_IllegalWordsAreTheFiveClauses :
    ((okState [.command 0xFFFFF#20]).pending = .command 0xFFFFF#20 :: [] ∧ isIllegal 0xFFFFF#20 = true) ∧
    ∃ t, (faultedState [.command 0x10000#20]).errBit = true ∧ step (faultedState [.command 0x10000#20]) = .next t ∧
      (faultedState [.command 0x10000#20]).pending.head? ≠ some .reset := ⟨⟨rfl, by decide⟩, _, rfl, rfl, by decide⟩

theorem witness_StepFunctionHasTheTwoForms : paramsArc.dir = .lsbFirst ∧ paramsMsb.dir = .msbFirst := ⟨rfl, rfl⟩

theorem witness_ChecksumLawsForAnyParameters : paramsArc.dir = .lsbFirst ∧ paramsMsb.dir = .msbFirst := ⟨rfl, rfl⟩

/-- A table whose hypotheses are easy to see: the entry's high byte is its index. -/
def indexTable : Params := ⟨⟨⟨(List.range 256).map fun n => BitVec.ofNat 8 n ++ 0#8⟩, by simp⟩, 0#16, .lsbFirst⟩

theorem indexTable_lookup : ∀ i : Byte, lookup indexTable i = i ++ 0#8 := by decide +kernel

theorem indexTable_highByte : ∀ i : Byte, highByte (i ++ 0#8) = i := by decide

theorem witness_SingleByteCorruptionChangesTheChecksum :
    indexTable.dir = .lsbFirst ∧ TableLIN indexTable ∧ TableHI0 indexTable ∧ (0#8 : Byte) ≠ 1#8 := by
  refine ⟨rfl, fun i j => ?_, fun j h => ?_, by decide⟩
  · rw [indexTable_lookup, indexTable_lookup, indexTable_lookup]
    apply BitVec.eq_of_getLsbD_eq
    intro k hk
    have bits : ∀ (x : Byte) (k : Nat), (x ++ 0#8).getLsbD k = if k < 8 then (0#8).getLsbD k else x.getLsbD (k - 8) :=
      fun x k => BitVec.getLsbD_append
    rw [BitVec.getLsbD_xor]
    refine (bits _ k).trans (Eq.trans ?_ (congrArg₂ _ (bits i k) (bits j k)).symm)
    by_cases low : k < 8 <;> simp [low]
  · rw [indexTable_lookup, indexTable_highByte] at h
    exact h

theorem witness_SumReturnsTheChecksum :
    ((okState (commandInputs (sumCommands [1#8]))).errBit = false ∧
      (okState (commandInputs (sumCommands [1#8]))).pending = commandInputs (sumCommands [1#8]) ++ []) ∧
    ((State.resetWith paramsArc).errBit = false ∧
      (State.resetWith paramsArc).crc = (State.resetWith paramsArc).params.init ∧
      (State.resetWith paramsArc).matchBit = false ∧
      (present (commandInputs (updCommands [1#8] ++ [.rd])) (State.resetWith paramsArc)).pending =
        commandInputs (updCommands [1#8] ++ [.rd]) ++ []) := ⟨⟨rfl, rfl⟩, rfl, rfl, rfl, rfl⟩

theorem witness_OnlyAbsorbedBytesMoveTheAccumulator :
    (okState []).pending = [] ∧ (okState []).errBit = false ∧ Instr.clr ∉ [Instr.upd 1#8, .nop, .upd 2#8] ∧
      (okState (commandInputs [.upd 1#8, .nop, .upd 2#8])).pending = commandInputs [.upd 1#8, .nop, .upd 2#8] ++ [] :=
  ⟨rfl, rfl, by decide, rfl⟩

theorem witness_VerifyDecidesTheTrailer :
    (okState (commandInputs (.clr :: ([1#8].map .upd ++ [.chk (0xC0#8 ++ 0xC1#8)])))).errBit = false ∧
      (okState (commandInputs (.clr :: ([1#8].map .upd ++ [.chk (0xC0#8 ++ 0xC1#8)])))).pending =
        commandInputs (.clr :: ([1#8].map .upd ++ [.chk (0xC0#8 ++ 0xC1#8)])) ++ [] := ⟨rfl, rfl⟩

theorem witness_AppendEmitsMessageAndTrailer : (0x20000#18).getLsbD 17 = true := by decide

theorem witness_AppendedFramePassesVerify :
    verifyCommands ([1#8] ++ trailer (checksum16 paramsArc [1#8])) = some [.clr, .upd 1#8, .chk 0xC0C1#16] ∧
      (okState (commandInputs [.clr, .upd 1#8, .chk 0xC0C1#16])).errBit = false ∧
      (okState (commandInputs [.clr, .upd 1#8, .chk 0xC0C1#16])).pending =
        commandInputs [.clr, .upd 1#8, .chk 0xC0C1#16] ++ [] := ⟨by decide, rfl, rfl⟩

theorem witness_ResidueCheckUnderItsConditions :
    (okState (commandInputs (verifyrCommands ([1#8] ++ [0xC1#8, 0xC0#8])))).errBit = false ∧
      (okState (commandInputs (verifyrCommands ([1#8] ++ [0xC1#8, 0xC0#8])))).pending =
        commandInputs (verifyrCommands ([1#8] ++ [0xC1#8, 0xC0#8])) ++ [] ∧
      (okState []).params.dir = .lsbFirst ∧ TableT0 (okState []).params ∧ TableHI0 (okState []).params ∧
      [0xC1#8, 0xC0#8] = checksum (okState []).params [1#8] :=
  ⟨rfl, rfl, rfl, by decide, by decide +kernel, by decide⟩

theorem witness_ResidueVerdictIsTheVerifyVerdict :
    (okState (commandInputs (verifyrCommands ([1#8] ++ [0xC1#8, 0xC0#8])))).errBit = false ∧
      (okState (commandInputs [.clr, .upd 1#8, .chk 0xC0C1#16])).errBit = false ∧
      (okState (commandInputs [.clr, .upd 1#8, .chk 0xC0C1#16])).params =
        (okState (commandInputs (verifyrCommands ([1#8] ++ [0xC1#8, 0xC0#8])))).params ∧
      (okState []).params.dir = .lsbFirst ∧ TableT0 (okState []).params ∧ TableHI0 (okState []).params ∧
      (okState (commandInputs (verifyrCommands ([1#8] ++ [0xC1#8, 0xC0#8])))).pending =
        commandInputs (verifyrCommands ([1#8] ++ [0xC1#8, 0xC0#8])) ++ [] ∧
      verifyCommands ([1#8] ++ [0xC1#8, 0xC0#8]) = some [.clr, .upd 1#8, .chk 0xC0C1#16] ∧
      (okState (commandInputs [.clr, .upd 1#8, .chk 0xC0C1#16])).pending =
        commandInputs [.clr, .upd 1#8, .chk 0xC0C1#16] ++ [] :=
  ⟨rfl, rfl, rfl, rfl, by decide, by decide +kernel, rfl, by decide, rfl⟩

theorem witness_MismatchIsAVerdictNotAFault : (okState []).errBit = false ∧ 0x5096#16 ≠ (okState []).crc := by decide

theorem witness_MissingClrRunsMessagesTogether :
    (stateWith paramsArc 0xC0C1#16 false false (commandInputs (updCommands [2#8] ++ [.rd]))).errBit = false ∧
      (stateWith paramsArc 0xC0C1#16 false false (commandInputs (updCommands [2#8] ++ [.rd]))).pending =
        commandInputs (updCommands [2#8] ++ [.rd]) ++ [] ∧
      0xC0C1#16 = checksum16 paramsArc [1#8] := ⟨rfl, rfl, by decide⟩

theorem witness_ReceivedFrameHasItsBounds :
    ([1#8, 2#8, 3#8, 1#8, 180#8, 0#8, 7#8, 8#8] : List Byte)[5]? = some 0#8 ∧ (0#8 : Byte).toNat + 8 ≤ 8 ∧
      ([1#8, 2#8, 3#8, 1#8, 180#8, 1#8, 7#8, 8#8] : List Byte)[5]? = some 1#8 ∧ 8 < (1#8 : Byte).toNat + 8 ∧
      ([1#8, 2#8, 3#8, 1#8, 180#8] : List Byte).length < 6 := by decide

end Sys2Proof.Tests
end

/-! ## The transition, register by register

What `transition` does in each case, and from that the next value of each register and the response word. -/

namespace Sys2Proof.Machine

section TransitionCases

variable {p : Params} {r : Regs} {cw : CommandWord}

theorem transition_faulted (he : r.errBit = true) : transition p r cw = (r, packResponse 0#16 r.matchBit true) := by
  simp [transition, he]

theorem transition_illegal {why : Illegal} (he : r.errBit = false) (hd : decode cw = .error why) :
    transition p r cw = (⟨r.crc, r.matchBit, true⟩, packResponse 0#16 r.matchBit true) := by
  simp [transition, he, hd]

theorem transition_nop (he : r.errBit = false) (hd : decode cw = .ok .nop) :
    transition p r cw = (r, packResponse 0#16 r.matchBit false) := by
  simp [transition, he, hd]

theorem transition_clr (he : r.errBit = false) (hd : decode cw = .ok .clr) :
    transition p r cw = (⟨p.init, false, false⟩, packResponse 0#16 false false) := by
  simp [transition, he, hd]

theorem transition_upd {b : Byte} (he : r.errBit = false) (hd : decode cw = .ok (.upd b)) :
    transition p r cw = (⟨crcStep p r.crc b, false, false⟩, packResponse 0#16 false false) := by
  simp [transition, he, hd]

theorem transition_rd (he : r.errBit = false) (hd : decode cw = .ok .rd) :
    transition p r cw = (r, packResponse r.crc r.matchBit false) := by
  simp [transition, he, hd]

theorem transition_chk {x : Word} (he : r.errBit = false) (hd : decode cw = .ok (.chk x)) :
    transition p r cw = (⟨r.crc, x == r.crc, false⟩, packResponse 0#16 (x == r.crc) false) := by
  simp [transition, he, hd]

end TransitionCases

theorem isIllegal_of_error {cw : CommandWord} {why : Illegal} (hd : decode cw = .error why) : isIllegal cw = true := by
  simp [isIllegal, hd]

theorem isIllegal_of_ok {cw : CommandWord} {i : Instr} (hd : decode cw = .ok i) : isIllegal cw = false := by
  simp [isIllegal, hd]

/-- `CRC` after a word, from `ERR`, `CRC` and the word alone: `MATCH` is no argument (R13). -/
def crcAfter (p : Params) (faulted : Bool) (c : Word) (cw : CommandWord) : Word :=
  if faulted then c
  else
    match decode cw with
    | .ok .clr => p.init
    | .ok (.upd b) => crcStep p c b
    | .ok .nop | .ok .rd | .ok (.chk _) | .error _ => c

theorem transition_crc (p : Params) (r : Regs) (cw : CommandWord) :
    (transition p r cw).1.crc = crcAfter p r.errBit r.crc cw := by
  cases he : r.errBit with
  | true => simp [transition_faulted he, crcAfter]
  | false =>
    cases hd : decode cw with
    | error why => simp [transition_illegal he hd, crcAfter, hd]
    | ok i =>
      cases i with
      | nop => simp [transition_nop he hd, crcAfter, hd]
      | clr => simp [transition_clr he hd, crcAfter, hd]
      | upd b => simp [transition_upd he hd, crcAfter, hd]
      | rd => simp [transition_rd he hd, crcAfter, hd]
      | chk x => simp [transition_chk he hd, crcAfter, hd]

/-- `ERR` is kept, and set by the illegal words (R14, R99). -/
theorem transition_errBit (p : Params) (r : Regs) (cw : CommandWord) :
    (transition p r cw).1.errBit = (r.errBit || isIllegal cw) := by
  cases he : r.errBit with
  | true => simp [transition_faulted he, he]
  | false =>
    cases hd : decode cw with
    | error why => simp [transition_illegal he hd, isIllegal_of_error hd]
    | ok i =>
      rw [isIllegal_of_ok hd]
      cases i with
      | nop => simp [transition_nop he hd, he]
      | clr => simp [transition_clr he hd]
      | upd b => simp [transition_upd he hd]
      | rd => simp [transition_rd he hd, he]
      | chk x => simp [transition_chk he hd]

/-- The response carries the flags after the word, and data for `RD` in an unfaulted engine only (R44). -/
theorem transition_response (p : Params) (r : Regs) (cw : CommandWord) :
    (transition p r cw).2 =
      packResponse (if r.errBit = false ∧ decode cw = .ok .rd then r.crc else 0#16)
        (transition p r cw).1.matchBit (transition p r cw).1.errBit := by
  cases he : r.errBit with
  | true => simp [transition_faulted he, he]
  | false =>
    cases hd : decode cw with
    | error why => simp [transition_illegal he hd]
    | ok i =>
      cases i with
      | nop => simp [transition_nop he hd, he]
      | clr => simp [transition_clr he hd]
      | upd b => simp [transition_upd he hd]
      | rd => simp [transition_rd he hd, he]
      | chk x => simp [transition_chk he hd]

@[simp] theorem responseMatch_transition (p : Params) (r : Regs) (cw : CommandWord) :
    responseMatch (transition p r cw).2 = (transition p r cw).1.matchBit := by
  rw [transition_response, responseMatch_packResponse]

@[simp] theorem responseErr_transition (p : Params) (r : Regs) (cw : CommandWord) :
    responseErr (transition p r cw).2 = (transition p r cw).1.errBit := by
  rw [transition_response, responseErr_packResponse]

/-! ## The step, register by register -/

/-- A step on a command word answers the one state `step_command` names. -/
theorem eq_afterWord_of_step {s t : State} {cw : CommandWord} {rest : List PortInput}
    (hp : s.pending = .command cw :: rest) (h : step s = .next t) : t = afterWord cw (setPending rest s) := by
  rw [step_command hp] at h
  cases h
  rfl

/-- A faulted engine only answers (R99). -/
theorem step_command_faulted {s : State} {cw : CommandWord} {rest : List PortInput}
    (hp : s.pending = .command cw :: rest) (he : s.errBit = true) :
    step s = .next { s with
      pending := rest, responses := s.responses ++ [packResponse 0#16 s.matchBit true] } := by
  rw [step_command hp]
  refine congrArg _ (State.ext_fields ?_ ?_ ?_ ?_ ?_ ?_) <;>
    simp [transition_faulted (r := regsOf s) he]

/-- `ERR` after any step: only reset clears it and only an illegal word sets it (R14). -/
theorem step_errBit_iff {s t : State} (h : step s = .next t) :
    t.errBit = true ↔ (s.errBit = true ∧ s.pending.head? ≠ some .reset) ∨
      ∃ cw, s.pending.head? = some (.command cw) ∧ isIllegal cw = true := by
  obtain ⟨hp, rfl⟩ | ⟨rest, hp, rfl⟩ | ⟨cw, rest, hp, rfl⟩ := step_cases h
  · simp [hp]
  · simp [hp]
  · simp [hp, transition_errBit]

/-- `CRC` and `ERR` after a step do not depend on `MATCH` (R13). -/
theorem step_crc_errBit_of_setMatch {s t u : State} {m : Bool} (ht : step s = .next t)
    (hu : step (setMatch m s) = .next u) : t.crc = u.crc ∧ t.errBit = u.errBit := by
  obtain ⟨hp, rfl⟩ | ⟨rest, hp, rfl⟩ | ⟨cw, rest, hp, rfl⟩ := step_cases ht
  · rw [step_idle (s := setMatch m t) hp] at hu
    cases hu
    simp
  · rw [step_reset (s := setMatch m s) hp] at hu
    cases hu
    simp
  · obtain rfl := eq_afterWord_of_step (s := setMatch m s) hp hu
    simp [transition_crc, transition_errBit]

end Sys2Proof.Machine

/-! ## Settled: the registers (10_state.md) -/

namespace Sys2Proof.Proofs

open Sys2Proof.Machine

/-- Settles O16: both steps are `afterWord`, which reads the parameters, the registers and the word only. -/
theorem noHiddenState : Obligations.NoHiddenState := by
  intro s u cw rest rest' hparams hregs hs hu
  refine ⟨_, _, (transition s.params (regsOf s) cw).2, step_command hs, step_command hu, ?_, ?_, ?_⟩
  · simp [hparams, hregs]
  · simp
  · simp [hparams, hregs]

/-- Settles O21: the rule by the kind of step and then by the command; bit 16 by `responseMatch_transition`;
the independence by `step_crc_errBit_of_setMatch`. -/
theorem matchFollowsItsRule : Obligations.MatchFollowsItsRule := by
  refine ⟨fun s t h => ?_, fun s t cw rest hp h => ?_, fun s t u m => step_crc_errBit_of_setMatch⟩
  · obtain ⟨hp, rfl⟩ | ⟨rest, hp, rfl⟩ | ⟨cw, rest, hp, rfl⟩ := step_cases h
    · simp [hp]
    · simp [hp]
    · rw [hp]
      cases he : s.errBit with
      | true => simp [transition_faulted (r := regsOf s) he]
      | false =>
        cases hd : decode cw with
        | error why => simp [transition_illegal (r := regsOf s) he hd, hd]
        | ok i =>
          cases i with
          | nop => simp [transition_nop (r := regsOf s) he hd, hd]
          | clr => simp [transition_clr (r := regsOf s) he hd, hd]
          | upd b => simp [transition_upd (r := regsOf s) he hd, hd]
          | rd => simp [transition_rd (r := regsOf s) he hd, hd]
          | chk x => simp [transition_chk (r := regsOf s) he hd, hd, beq_eq_decide]
  · obtain rfl := eq_afterWord_of_step hp h
    exact ⟨_, afterWord_responses _ _, responseMatch_transition _ _ _⟩

/-- Settles O23: `step_errBit_iff`, `step_command_faulted`, and bit 17 by `responseErr_transition`. -/
theorem errIsStickyAndSetByIllegalWords : Obligations.ErrIsStickyAndSetByIllegalWords := by
  refine ⟨fun s t => step_errBit_iff, fun s cw rest => step_command_faulted, fun s t cw rest hp h => ?_⟩
  obtain rfl := eq_afterWord_of_step hp h
  exact ⟨_, afterWord_responses _ _, responseErr_transition _ _ _⟩

/-- Settles O1: the fields of `State.resetWith`, of which `State.reset` is one, and of `applyReset`. -/
theorem resetGivesTheSpecifiedValues : Obligations.ResetGivesTheSpecifiedValues := by
  refine ⟨fun p => ⟨?_, ?_, ?_, ?_⟩, ⟨?_, ?_, ?_⟩, fun s rest hp => ⟨_, step_reset hp, ?_, ?_, ?_, ?_⟩⟩ <;>
    simp [State.reset]

end Sys2Proof.Proofs

/-! ## The trailer (20_memory.md) -/

namespace Sys2Proof.Machine

@[simp] theorem lowByte_untrailer (b0 b1 : Byte) : lowByte (untrailer b0 b1) = b0 :=
  BitVec.extractLsb'_append_eq_right

@[simp] theorem highByte_untrailer (b0 b1 : Byte) : highByte (untrailer b0 b1) = b1 :=
  BitVec.extractLsb'_append_eq_left

@[simp] theorem untrailer_lowByte_highByte (v : Word) : untrailer (lowByte v) (highByte v) = v :=
  BitVec.extractLsb'_append_extractLsb' (w := 8) (len := 8)

@[simp] theorem trailer_untrailer (b0 b1 : Byte) : trailer (untrailer b0 b1) = [b0, b1] := by
  simp [trailer]

@[simp] theorem length_trailer (v : Word) : (trailer v).length = 2 := rfl

/-- Offset `n - 2` of a frame of `n` bytes that ends in a trailer (R27). -/
theorem getElem?_append_trailer_low (b : List Byte) (v : Word) :
    (b ++ trailer v)[(b ++ trailer v).length - 2]? = some (lowByte v) := by
  have offset : (b ++ trailer v).length - 2 = b.length := by simp
  rw [offset, List.getElem?_append_right le_rfl, Nat.sub_self]
  rfl

/-- Offset `n - 1` of a frame of `n` bytes that ends in a trailer (R27). -/
theorem getElem?_append_trailer_high (b : List Byte) (v : Word) :
    (b ++ trailer v)[(b ++ trailer v).length - 1]? = some (highByte v) := by
  have offset : (b ++ trailer v).length - 1 = b.length + 1 := by simp
  rw [offset, List.getElem?_append_right (Nat.le_add_right _ 1), Nat.add_sub_cancel_left]
  rfl

end Sys2Proof.Machine

/-! ## Settled: the memory (20_memory.md) -/

namespace Sys2Proof.Proofs

open Sys2Proof.Machine

/-- Settles O33: the byte order is `trailer`'s own; the frame offsets and the two inverse directions are the lemmas
about `trailer` and `untrailer`, whose `lowByte` and `highByte` are the statement's two bit ranges. -/
theorem trailerIsLowByteFirst : Obligations.TrailerIsLowByteFirst :=
  ⟨fun _ => rfl,
    fun b v => ⟨getElem?_append_trailer_low b v, getElem?_append_trailer_high b v⟩,
    fun b0 b1 => ⟨lowByte_untrailer b0 b1, highByte_untrailer b0 b1, trailer_untrailer b0 b1⟩,
    untrailer_lowByte_highByte⟩

end Sys2Proof.Proofs

/-! ## The decoder and the encoder (30_encoding.md)

What `decode` answers for each operation code, and from that the one fact both round trips turn on: a command decoded from
a word has exactly that word's fields. -/

namespace Sys2Proof

open Machine

/-- An operation code is one of R41's five, or reserved (R45(a)). -/
theorem op_cases (op : BitVec 4) :
    op = 0x0#4 ∨ op = 0x1#4 ∨ op = 0x2#4 ∨ op = 0x3#4 ∨ op = 0x4#4 ∨ 5 ≤ op.toNat := by
  revert op
  decide

theorem op_ne_of_reserved {op : BitVec 4} (h : 5 ≤ op.toNat) :
    op ≠ 0x0#4 ∧ op ≠ 0x1#4 ∧ op ≠ 0x2#4 ∧ op ≠ 0x3#4 ∧ op ≠ 0x4#4 := by
  revert op
  decide

section DecodeByOp

variable {cw : CommandWord}

theorem decode_of_op_nop (h : opField cw = 0x0#4) :
    decode cw = if argField cw = 0#16 then .ok .nop else .error .nopOperand := by
  simp [decode, h]

theorem decode_of_op_clr (h : opField cw = 0x1#4) :
    decode cw = if argField cw = 0#16 then .ok .clr else .error .clrOperand := by
  simp [decode, h]

theorem decode_of_op_upd (h : opField cw = 0x2#4) :
    decode cw = if argHigh (argField cw) = 0#8 then .ok (.upd (argLow (argField cw))) else .error .updOperand := by
  simp [decode, h]

theorem decode_of_op_rd (h : opField cw = 0x3#4) :
    decode cw = if argField cw = 0#16 then .ok .rd else .error .rdOperand := by
  simp [decode, h]

theorem decode_of_op_chk (h : opField cw = 0x4#4) : decode cw = .ok (.chk (argField cw)) := by
  simp [decode, h]

theorem decode_of_op_reserved (h : 5 ≤ (opField cw).toNat) : decode cw = .error .reservedOp := by
  simp [decode, op_ne_of_reserved h]

end DecodeByOp

/-! ### A command with a checked operand -/

section CheckedOperand

variable {check : Prop} [Decidable check] {i j : Instr} {why : Illegal}

theorem checked_eq_ok_iff : (if check then Except.ok i else .error why) = .ok j ↔ check ∧ i = j := by
  split <;> simp [*]

theorem toOption_checked : (if check then Except.ok i else .error why).toOption = if check then some i else none :=
  apply_ite ..

end CheckedOperand

/-! ### The two bytes of the operand -/

theorem argHigh_argField (cw : CommandWord) : argHigh (argField cw) = cw.extractLsb' 8 8 :=
  BitVec.extractLsb'_extractLsb'_of_le (by decide)

theorem argLow_argField (cw : CommandWord) : argLow (argField cw) = cw.extractLsb' 0 8 :=
  BitVec.extractLsb'_extractLsb'_of_le (by decide)

@[simp] theorem argHigh_zero_append (b : Byte) : argHigh (0#8 ++ b) = 0#8 := BitVec.extractLsb'_append_eq_left

@[simp] theorem argLow_zero_append (b : Byte) : argLow (0#8 ++ b) = b := BitVec.extractLsb'_append_eq_right

theorem argHigh_append_argLow (a : Word) : argHigh a ++ argLow a = a :=
  BitVec.extractLsb'_append_extractLsb' (w := 8) (len := 8)

theorem toNat_zero_append (b : Byte) : (0#8 ++ b : Word).toNat = b.toNat :=
  (BitVec.toNat_append 0#8 b).trans (by simp)

/-! ### Decoding reads the fields -/

theorem decode_ofFields_fields (i : Instr) : decode (ofFields i.fields) = .ok i := by
  cases i with
  | nop => rfl
  | clr => rfl
  | upd b => simp [decode, Instr.fields]
  | rd => rfl
  | chk x => simp [decode, Instr.fields]

theorem fields_of_decode {cw : CommandWord} {i : Instr} (h : decode cw = .ok i) :
    i.fields = ⟨opField cw, argField cw⟩ := by
  obtain hop | hop | hop | hop | hop | hop := op_cases (opField cw)
  · obtain ⟨arg, rfl⟩ := checked_eq_ok_iff.1 (decode_of_op_nop hop ▸ h)
    rw [Instr.fields, hop, arg]
  · obtain ⟨arg, rfl⟩ := checked_eq_ok_iff.1 (decode_of_op_clr hop ▸ h)
    rw [Instr.fields, hop, arg]
  · obtain ⟨high, rfl⟩ := checked_eq_ok_iff.1 (decode_of_op_upd hop ▸ h)
    rw [Instr.fields, hop, ← high, argHigh_append_argLow]
  · obtain ⟨arg, rfl⟩ := checked_eq_ok_iff.1 (decode_of_op_rd hop ▸ h)
    rw [Instr.fields, hop, arg]
  · rw [decode_of_op_chk hop] at h
    cases h
    rw [Instr.fields, hop]
  · rw [decode_of_op_reserved hop] at h
    cases h

/-- R50's decoding pseudocode. -/
theorem toOption_decode (cw : CommandWord) :
    (decode cw).toOption =
      if opField cw = 0x0#4 ∧ argField cw = 0#16 then some .nop
      else if opField cw = 0x1#4 ∧ argField cw = 0#16 then some .clr
      else if opField cw = 0x2#4 ∧ argHigh (argField cw) = 0#8 then some (.upd (argLow (argField cw)))
      else if opField cw = 0x3#4 ∧ argField cw = 0#16 then some .rd
      else if opField cw = 0x4#4 then some (.chk (argField cw))
      else none := by
  obtain hop | hop | hop | hop | hop | hop := op_cases (opField cw)
  · simp [decode_of_op_nop hop, toOption_checked, hop]
  · simp [decode_of_op_clr hop, toOption_checked, hop]
  · simp [decode_of_op_upd hop, toOption_checked, hop]
  · simp [decode_of_op_rd hop, toOption_checked, hop]
  · simp [decode_of_op_chk hop, Except.toOption, hop]
  · simp [decode_of_op_reserved hop, Except.toOption, op_ne_of_reserved hop]

/-! ### Encoding places the fields -/

theorem toNat_ofFields (f : CmdFields) : (ofFields f).toNat = f.op.toNat * 2 ^ 16 + f.arg.toNat := by
  rw [ofFields, BitVec.toNat_append, ← Nat.shiftLeft_add_eq_or_of_lt f.arg.isLt, Nat.shiftLeft_eq]

theorem toNat_encode_upd (b : Byte) : (encode (.upd b)).toNat = 0x20000 + b.toNat := by
  rw [encode]
  bv_omega

theorem toNat_encode_chk (x : Word) : (encode (.chk x)).toNat = 0x40000 + x.toNat := by
  rw [encode]
  bv_omega

/-- R50's encoding formulas give the word with the command's fields. -/
theorem encode_eq_ofFields (i : Instr) : encode i = ofFields i.fields := by
  apply BitVec.eq_of_toNat_eq
  cases i with
  | nop => rfl
  | clr => rfl
  | upd b => simp [toNat_encode_upd, toNat_ofFields, Instr.fields, toNat_zero_append]
  | rd => rfl
  | chk x => simp [toNat_encode_chk, toNat_ofFields, Instr.fields]

/-! ### The two round trips -/

theorem decode_encode (i : Instr) : decode (encode i) = .ok i := by
  rw [encode_eq_ofFields, decode_ofFields_fields]

theorem encode_of_decode {cw : CommandWord} {i : Instr} (h : decode cw = .ok i) : encode i = cw := by
  rw [encode_eq_ofFields, fields_of_decode h, ofFields_fields]

/-! ### The illegal words and their number (R45) -/

theorem isIllegal_eq_isNone (cw : CommandWord) : isIllegal cw = (decode cw).toOption.isNone := by
  cases hd : decode cw with
  | error why => simp [isIllegal_of_error hd, Except.toOption]
  | ok i => simp [isIllegal_of_ok hd, Except.toOption]

theorem isIllegal_iff_clauses (cw : CommandWord) : isIllegal cw = true ↔
    5 ≤ (opField cw).toNat ∨
    (opField cw = 0x0#4 ∧ argField cw ≠ 0#16) ∨ (opField cw = 0x1#4 ∧ argField cw ≠ 0#16) ∨
    (opField cw = 0x2#4 ∧ argHigh (argField cw) ≠ 0#8) ∨ (opField cw = 0x3#4 ∧ argField cw ≠ 0#16) := by
  rw [isIllegal_eq_isNone, toOption_decode]
  obtain hop | hop | hop | hop | hop | hop := op_cases (opField cw)
  · simp [hop]
  · simp [hop]
  · simp [hop]
  · simp [hop]
  · simp [hop]
  · simp [hop, op_ne_of_reserved hop]

/-- Every command as a legal word. -/
def legalWord (i : Instr) : { cw : CommandWord // isIllegal cw = false } :=
  ⟨encode i, isIllegal_of_ok (decode_encode i)⟩

theorem legalWord_bijective : Function.Bijective legalWord := by
  refine ⟨fun i j h => ?_, fun ⟨cw, legal⟩ => ?_⟩
  · have words : encode i = encode j := congrArg Subtype.val h
    have answers : Except.ok i = decode (encode j) := words ▸ (decode_encode i).symm
    exact Except.ok.inj (answers.trans (decode_encode j))
  · cases hd : decode cw with
    | error why => simp [isIllegal_of_error hd] at legal
    | ok i => exact ⟨i, Subtype.ext (encode_of_decode hd)⟩

/-- A command is its constructor and its operand. -/
def instrEquivOperands : Instr ≃ Unit ⊕ Unit ⊕ Byte ⊕ Unit ⊕ Word where
  toFun
    | .nop => .inl ()
    | .clr => .inr (.inl ())
    | .upd b => .inr (.inr (.inl b))
    | .rd => .inr (.inr (.inr (.inl ())))
    | .chk x => .inr (.inr (.inr (.inr x)))
  invFun
    | .inl _ => .nop
    | .inr (.inl _) => .clr
    | .inr (.inr (.inl b)) => .upd b
    | .inr (.inr (.inr (.inl _))) => .rd
    | .inr (.inr (.inr (.inr x))) => .chk x
  left_inv i := by cases i <;> rfl
  right_inv := by rintro (_ | _ | _ | _ | _) <;> rfl

theorem natCard_bitVec (w : Nat) : Nat.card (BitVec w) = 2 ^ w :=
  Nat.card_eq_of_equiv_fin BitVec.equivFin.toEquiv

theorem natCard_instr : Nat.card Instr = 65795 := by
  rw [Nat.card_congr instrEquivOperands]
  simp only [Nat.card_sum, natCard_bitVec, Nat.card_unique]
  norm_num

theorem natCard_legal : Nat.card { cw : CommandWord // isIllegal cw = false } = 65795 :=
  (Nat.card_eq_of_bijective legalWord legalWord_bijective).symm.trans natCard_instr

theorem natCard_illegal_add_legal :
    Nat.card { cw : CommandWord // isIllegal cw = true } + Nat.card { cw : CommandWord // isIllegal cw = false } =
      2 ^ 20 := by
  have parts := Nat.card_congr (Equiv.sumCompl fun cw : CommandWord => isIllegal cw = true)
  rw [Nat.card_sum, natCard_bitVec] at parts
  simpa using parts

theorem natCard_illegal : Nat.card { cw : CommandWord // isIllegal cw = true } = 982781 := by
  have parts := natCard_illegal_add_legal
  rw [natCard_legal] at parts
  exact Nat.add_right_cancel (parts.trans (by norm_num : 2 ^ 20 = 982781 + 65795))

end Sys2Proof

/-! ## The effect of an illegal word and the data of a response -/

namespace Sys2Proof.Machine

/-- An illegal word leaves `ERR` set and the other registers as they are, faulted or not (R45, R99). -/
theorem transition_of_isIllegal (p : Params) (r : Regs) {cw : CommandWord} (h : isIllegal cw = true) :
    (transition p r cw).1 = ⟨r.crc, r.matchBit, true⟩ := by
  cases he : r.errBit with
  | true => rw [transition_faulted he, ← he]
  | false =>
    cases hd : decode cw with
    | error why => rw [transition_illegal he hd]
    | ok i => simp [isIllegal_of_ok hd] at h

theorem responseData_transition (p : Params) (r : Regs) (cw : CommandWord) :
    responseData (transition p r cw).2 = if r.errBit = false ∧ decode cw = .ok .rd then r.crc else 0#16 := by
  rw [transition_response, responseData_packResponse]

end Sys2Proof.Machine

/-! ## Settled: the encoding (30_encoding.md) -/

namespace Sys2Proof.Proofs

open Sys2Proof.Machine

/-- Settles O27: the pseudocode is `toOption_decode`; the two round trips hold because the encoding places the fields the
decoding reads. -/
theorem decodeAndEncodeAreInverse : Obligations.DecodeAndEncodeAreInverse := by
  refine ⟨fun cw => ?_, ⟨rfl, rfl, toNat_encode_upd, rfl, toNat_encode_chk⟩, decode_encode, fun cw i => encode_of_decode⟩
  rw [← argHigh_argField, ← argLow_argField]
  exact toOption_decode cw

/-- Settles O13: the one response of `step_command`, its flags by `responseErr_transition` and `responseMatch_transition`,
its data by `responseData_transition`. -/
theorem eachCommandWordGetsOneResponse : Obligations.EachCommandWordGetsOneResponse := by
  intro s cw rest hp
  have data := responseData_transition s.params (regsOf s) cw
  refine ⟨_, _, step_command hp, afterWord_responses _ _, responseErr_transition _ _ _, responseMatch_transition _ _ _,
    fun he hd => data.trans (if_pos ⟨he, hd⟩), fun h => data.trans (if_neg ?_)⟩
  rintro ⟨he, hd⟩
  exact h.elim (fun faulted => Bool.false_ne_true (he.symm.trans faulted)) fun other => other hd

/-- Settles O30: the clauses by the operation code; the legal words counted by the commands they encode and the illegal
ones as the rest of the `2 ^ 20`; the effect by `transition_of_isIllegal` and the stickiness by `step_errBit_iff`. -/
theorem illegalWordsAreTheFiveClauses : Obligations.IllegalWordsAreTheFiveClauses := by
  refine ⟨isIllegal_iff_clauses, natCard_legal, natCard_illegal, fun s cw rest hp illegal => ?_,
    fun s t he h hp => (step_errBit_iff h).2 (.inl ⟨he, hp⟩)⟩
  refine ⟨_, step_command hp, ?_, ?_, ?_, ?_⟩ <;> simp [transition_of_isIllegal _ _ illegal]

end Sys2Proof.Proofs

/-! ## The step of the checksum function (40_crc_function.md)

The form `DIR` selects, and the two shifts by eight places as the byte that moves and the zeros that enter (R56, R59). -/

namespace Sys2Proof.Machine

theorem crcStep_of_lsbFirst {p : Params} (h : p.dir = .lsbFirst) (c : Word) (b : Byte) :
    crcStep p c b = (c >>> 8) ^^^ lookup p (lowByte c ^^^ b) := by
  simp only [crcStep, crcShift, crcIndex, h]

theorem crcStep_of_msbFirst {p : Params} (h : p.dir = .msbFirst) (c : Word) (b : Byte) :
    crcStep p c b = (c <<< 8) ^^^ lookup p (highByte c ^^^ b) := by
  simp only [crcStep, crcShift, crcIndex, h]

theorem ushiftRight_eight_eq_zero_append_highByte (c : Word) : c >>> 8 = 0#8 ++ highByte c :=
  BitVec.ushiftRight_eq_extractLsb'_of_lt (by decide)

theorem shiftLeft_eight_eq_lowByte_append_zero (c : Word) : c <<< 8 = lowByte c ++ 0#8 :=
  BitVec.shiftLeft_eq_concat_of_lt (by decide)

end Sys2Proof.Machine

/-! ## Settled: the checksum function (40_crc_function.md) -/

namespace Sys2Proof.Proofs

open Sys2Proof.Machine

/-- Settles O31: the form for each `DIR`, with its shift rewritten as the byte that moves beside eight zeros. -/
theorem stepFunctionHasTheTwoForms : Obligations.StepFunctionHasTheTwoForms := by
  refine ⟨fun p c b lsb => ?_, fun p c b msb => ?_⟩
  · rw [crcStep_of_lsbFirst lsb, ushiftRight_eight_eq_zero_append_highByte]
    rfl
  · rw [crcStep_of_msbFirst msb, shiftLeft_eight_eq_lowByte_append_zero]
    rfl

end Sys2Proof.Proofs

/-! ## The five commands in one state (41_commands.md)

A faulted engine answers every command alike (R70); an unfaulted one performs it (R71 to R75) and answers with `err = 0`. -/

namespace Sys2Proof.Machine

section CommandCases

variable {s : State}

theorem respond_faulted (data : Word) (he : s.errBit = true) :
    respond data s = { s with responses := s.responses ++ [packResponse data s.matchBit true] } := by
  rw [respond, emit, he]

theorem respond_unfaulted (data : Word) (he : s.errBit = false) :
    respond data s = { s with responses := s.responses ++ [packResponse data s.matchBit false] } := by
  rw [respond, emit, he]

theorem exec_faulted (i : Instr) (he : s.errBit = true) :
    exec i s = .next { s with responses := s.responses ++ [packResponse 0#16 s.matchBit true] } := by
  have gated (perform : State → State) : whenUnfaulted perform s = _ :=
    (whenUnfaulted_faulted he).trans (respond_faulted 0#16 he)
  cases i with
  | nop => exact congrArg _ (gated _)
  | clr => exact congrArg _ (gated _)
  | upd b => exact congrArg _ (gated _)
  | rd => exact congrArg _ (gated _)
  | chk x => exact congrArg _ (gated _)

theorem exec_nop_unfaulted (he : s.errBit = false) :
    exec .nop s = .next { s with responses := s.responses ++ [packResponse 0#16 s.matchBit false] } :=
  congrArg _ ((whenUnfaulted_unfaulted he).trans (respond_unfaulted _ he))

theorem exec_clr_unfaulted (he : s.errBit = false) :
    exec .clr s = .next { s with
      crc := s.params.init, matchBit := false, responses := s.responses ++ [packResponse 0#16 false false] } :=
  congrArg _ ((whenUnfaulted_unfaulted he).trans
    (respond_unfaulted (s := setMatch false (setCrc s.params.init s)) 0#16 he))

theorem exec_upd_unfaulted (b : Byte) (he : s.errBit = false) :
    exec (.upd b) s = .next { s with
      crc := crcStep s.params s.crc b, matchBit := false
      responses := s.responses ++ [packResponse 0#16 false false] } :=
  congrArg _ ((whenUnfaulted_unfaulted he).trans
    (respond_unfaulted (s := setMatch false (absorbByte b s)) 0#16 he))

theorem exec_rd_unfaulted (he : s.errBit = false) :
    exec .rd s = .next { s with responses := s.responses ++ [packResponse s.crc s.matchBit false] } :=
  congrArg _ ((whenUnfaulted_unfaulted he).trans (respond_unfaulted _ he))

theorem exec_chk_unfaulted (x : Word) (he : s.errBit = false) :
    exec (.chk x) s = .next { s with
      matchBit := x == s.crc, responses := s.responses ++ [packResponse 0#16 (x == s.crc) false] } :=
  congrArg _ ((whenUnfaulted_unfaulted he).trans
    (respond_unfaulted (s := setMatch (matchAfterChk x s.crc) s) 0#16 he))

end CommandCases

/-- `TABLE[0] = 0` keeps an accumulator of 0 at 0 when the byte 0 is absorbed, in both forms (R73). -/
theorem crcStep_zero_zero {p : Params} (t0 : TableT0 p) : crcStep p 0#16 0#8 = 0#16 := by
  cases hd : p.dir with
  | lsbFirst =>
    rw [crcStep_of_lsbFirst hd]
    exact (BitVec.zero_xor ..).trans t0
  | msbFirst =>
    rw [crcStep_of_msbFirst hd]
    exact (BitVec.zero_xor ..).trans t0

theorem toNat_untrailer (b0 b1 : Byte) : (untrailer b0 b1).toNat = b1.toNat * 256 + b0.toNat := by
  rw [untrailer, BitVec.toNat_append, ← Nat.shiftLeft_add_eq_or_of_lt b0.isLt, Nat.shiftLeft_eq]

end Sys2Proof.Machine

/-! ## Settled: the commands (41_commands.md) -/

namespace Sys2Proof.Proofs

open Sys2Proof.Machine

/-- Settles O17, by induction on the words: the first step is `afterWord`, whose registers are where the rest of the fold
starts and whose response comes before the rest's. -/
theorem machineRefinesTheTransitionFold : Obligations.MachineRefinesTheTransitionFold := by
  intro s cws rest hp
  induction cws generalizing s with
  | nil =>
    obtain rfl : s.pending = rest := hp
    simp [runsTo_zero, runWords]
  | cons cw cws ih =>
    have others := ih (afterWord cw (setPending (cws.map .command ++ rest) s)) rfl
    rw [List.length_cons, runsTo_succ (step_command hp)]
    simpa [runWords] using others

/-- Settles O3: `exec_nop_unfaulted`, `exec_faulted`, and R45(b) among the clauses of `isIllegal_iff_clauses`. -/
theorem nopAnswersTheFlagsOnly : Obligations.NopAnswersTheFlagsOnly :=
  ⟨rfl, fun _ => exec_nop_unfaulted, fun _ => exec_faulted .nop,
    fun cw hop harg => (isIllegal_iff_clauses cw).2 (.inr (.inl ⟨hop, harg⟩))⟩

/-- Settles O4: `exec_clr_unfaulted`, for the second `CLR` from the state after the first, where `RD` reads `INIT`. -/
theorem clrStartsAMessage : Obligations.ClrStartsAMessage :=
  ⟨rfl, fun _ => exec_clr_unfaulted, fun _ => exec_faulted .clr,
    fun _ he => ⟨_, _, _, exec_clr_unfaulted he, exec_clr_unfaulted he, rfl, exec_rd_unfaulted he, rfl⟩⟩

/-- Settles O5: `exec_upd_unfaulted` with `crcStep` in the form `DIR` selects; R45(d) among the clauses of
`isIllegal_iff_clauses`; the byte 0 by `crcStep_zero_zero`. -/
theorem updAbsorbsOneByte : Obligations.UpdAbsorbsOneByte := by
  refine ⟨toNat_encode_upd, fun s b he => ?_, fun s b => exec_faulted (.upd b),
    fun cw hop high => (isIllegal_iff_clauses cw).2 (.inr (.inr (.inr (.inl ⟨hop, high⟩)))),
    fun s he hc t0 => ⟨_, exec_upd_unfaulted 0#8 he, ?_⟩⟩
  · rw [exec_upd_unfaulted b he]
    cases hd : s.params.dir with
    | lsbFirst => rw [crcStep_of_lsbFirst hd]; rfl
    | msbFirst => rw [crcStep_of_msbFirst hd]; rfl
  · exact hc ▸ crcStep_zero_zero t0

/-- Settles O6: `exec_rd_unfaulted`, `exec_faulted`, the data read back from the response, and R45(e) among the clauses of
`isIllegal_iff_clauses`. -/
theorem rdReturnsTheAccumulator : Obligations.RdReturnsTheAccumulator :=
  ⟨rfl, fun _ => exec_rd_unfaulted,
    fun s m e => ⟨responseData_packResponse s.crc m e, congrArg trailer (responseData_packResponse s.crc m e)⟩,
    fun _ => exec_faulted .rd,
    fun cw hop harg => (isIllegal_iff_clauses cw).2 (.inr (.inr (.inr (.inr ⟨hop, harg⟩))))⟩

/-- Settles O7: `exec_chk_unfaulted`, whose Boolean comparison decides the equality of the two words, `toNat_untrailer`
and `exec_faulted`. -/
theorem chkComparesAllSixteenBits : Obligations.ChkComparesAllSixteenBits :=
  ⟨toNat_encode_chk, fun s x he => beq_eq_decide x s.crc ▸ exec_chk_unfaulted x he, toNat_untrailer,
    fun _ x => exec_faulted (.chk x)⟩

end Sys2Proof.Proofs

/-! ## Whole messages on the registers (42_sequences.md)

A list of commands is its words, so a run over it is `runWords`; what each sequence does is then a fact about the triple of
R70: `CLR` and the `UPD`s leave the checksum of the message, the last command reads or compares it. -/

namespace Sys2Proof.Machine

theorem commandInputs_eq_map_encode (commands : List Instr) :
    commandInputs commands = (commands.map encode).map .command :=
  List.map_map.symm

/-- A run over presented commands is the fold over their words (R70, R120). -/
theorem runsTo_commands {s : State} {commands : List Instr} {rest : List PortInput}
    (hp : s.pending = commandInputs commands ++ rest) :
    runsTo commands.length s { s with
      crc := (runWords s.params (regsOf s) (commands.map encode)).1.crc
      matchBit := (runWords s.params (regsOf s) (commands.map encode)).1.matchBit
      errBit := (runWords s.params (regsOf s) (commands.map encode)).1.errBit
      pending := rest
      responses := s.responses ++ (runWords s.params (regsOf s) (commands.map encode)).2 } := by
  rw [commandInputs_eq_map_encode] at hp
  simpa using Proofs.machineRefinesTheTransitionFold s (commands.map encode) rest hp

theorem runWords_append (p : Params) (r : Regs) (first second : List CommandWord) :
    runWords p r (first ++ second) =
      ((runWords p (runWords p r first).1 second).1,
        (runWords p r first).2 ++ (runWords p (runWords p r first).1 second).2) := by
  induction first generalizing r with
  | nil => rfl
  | cons cw first ih => simp [runWords, ih]

/-- The last command acts on the registers the others leave and answers after them. -/
theorem runWords_commands_concat (p : Params) (r : Regs) (commands : List Instr) (last : Instr) :
    runWords p r ((commands ++ [last]).map encode) =
      ((transition p (runWords p r (commands.map encode)).1 (encode last)).1,
        (runWords p r (commands.map encode)).2 ++
          [(transition p (runWords p r (commands.map encode)).1 (encode last)).2]) := by
  rw [List.map_append, runWords_append]
  rfl

section Messages

variable (p : Params)

theorem runWords_updCommands (c : Word) (message : List Byte) :
    runWords p ⟨c, false, false⟩ ((updCommands message).map encode) =
      (⟨absorb p c message, false, false⟩, List.replicate message.length (packResponse 0#16 false false)) := by
  induction message generalizing c with
  | nil => rfl
  | cons b message ih =>
    have first : transition p ⟨c, false, false⟩ (encode (.upd b)) = _ := transition_upd rfl (decode_encode _)
    have others := ih (crcStep p c b)
    simp only [updCommands, List.map_cons, runWords, first] at others ⊢
    rw [others]
    rfl

variable {r : Regs}

/-- `CLR` makes the registers before it irrelevant (R85). -/
theorem runWords_clr_updCommands (he : r.errBit = false) (message : List Byte) :
    runWords p r ((.clr :: updCommands message).map encode) =
      (⟨checksum16 p message, false, false⟩,
        List.replicate (message.length + 1) (packResponse 0#16 false false)) := by
  have first : transition p r (encode .clr) = _ := transition_clr he (decode_encode _)
  rw [List.map_cons, runWords, first, runWords_updCommands]
  rfl

theorem runWords_updCommands_rd (c : Word) (message : List Byte) :
    runWords p ⟨c, false, false⟩ ((updCommands message ++ [Instr.rd]).map encode) =
      (⟨absorb p c message, false, false⟩,
        List.replicate message.length (packResponse 0#16 false false) ++
          [packResponse (absorb p c message) false false]) := by
  rw [runWords_commands_concat, runWords_updCommands, transition_rd rfl (decode_encode _)]

theorem runWords_sumCommands (he : r.errBit = false) (message : List Byte) :
    runWords p r ((sumCommands message).map encode) =
      (⟨checksum16 p message, false, false⟩,
        List.replicate (message.length + 1) (packResponse 0#16 false false) ++
          [packResponse (checksum16 p message) false false]) := by
  rw [sumCommands, ← List.cons_append, runWords_commands_concat, runWords_clr_updCommands p he,
    transition_rd rfl (decode_encode _)]

theorem runWords_clr_updCommands_chk (he : r.errBit = false) (covered : List Byte) (x : Word) :
    runWords p r ((.clr :: (updCommands covered ++ [.chk x])).map encode) =
      (⟨checksum16 p covered, x == checksum16 p covered, false⟩,
        List.replicate (covered.length + 1) (packResponse 0#16 false false) ++
          [packResponse 0#16 (x == checksum16 p covered) false]) := by
  rw [← List.cons_append, runWords_commands_concat, runWords_clr_updCommands p he,
    transition_chk rfl (decode_encode _)]

end Messages

@[simp] theorem length_updCommands (message : List Byte) : (updCommands message).length = message.length :=
  List.length_map _

@[simp] theorem length_sumCommands (message : List Byte) : (sumCommands message).length = message.length + 2 := by
  simp [sumCommands]

/-! ### Frames and verdicts -/

@[simp] theorem coveredBytes_append_pair (covered : List Byte) (b0 b1 : Byte) :
    coveredBytes (covered ++ [b0, b1]) = covered := by
  simp [coveredBytes]

@[simp] theorem trailerBytes_append_pair (covered : List Byte) (b0 b1 : Byte) :
    trailerBytes (covered ++ [b0, b1]) = [b0, b1] := by
  simp [trailerBytes]

theorem verifyCommands_append_pair (covered : List Byte) (b0 b1 : Byte) :
    verifyCommands (covered ++ [b0, b1]) = some (.clr :: (updCommands covered ++ [.chk (untrailer b0 b1)])) := by
  simp [verifyCommands]

/-- The 16-bit comparison of `CHK` is the comparison of both trailer bytes (R27, R43). -/
theorem untrailer_eq_iff {b0 b1 : Byte} {v : Word} :
    untrailer b0 b1 = v ↔ b0 = lowByte v ∧ b1 = highByte v := by
  constructor
  · rintro rfl
    simp
  · rintro ⟨rfl, rfl⟩
    simp

theorem verifyVerdict_of_unfaulted {rw : ResponseWord} (h : responseErr rw = false) :
    verifyVerdict rw = if responseMatch rw then .trailerCorrect else .checksumMismatch := by
  simp [verifyVerdict, h]

theorem verifyVerdict_eq_checksumMismatch_iff {rw : ResponseWord} (h : responseErr rw = false) :
    verifyVerdict rw = .checksumMismatch ↔ responseMatch rw = false := by
  cases hm : responseMatch rw <;> simp [verifyVerdict_of_unfaulted h, hm]

/-- The host's own comparison of the data with the trailer is the comparison `CHK` makes (R88). -/
theorem compareVerdict_eq_verifyVerdict (b0 b1 : Byte) (v data : Word) (m : Bool) :
    compareVerdict b0 b1 (packResponse v m false) =
      verifyVerdict (packResponse data (untrailer b0 b1 == v) false) := by
  simp [compareVerdict, verifyVerdict, eq_comm (a := v)]

end Sys2Proof.Machine

/-! ## Settled: whole messages (42_sequences.md) -/

namespace Sys2Proof.Proofs

open Sys2Proof.Machine

/-- Settles O37: the run over `SUM`'s commands by `runWords_sumCommands`; without the `CLR` from the registers reset leaves
by `runWords_updCommands_rd`; the 2-byte value read back from the response. -/
theorem sumReturnsTheChecksum : Obligations.SumReturnsTheChecksum := by
  refine ⟨fun s message rest he hp => ?_, fun s message rest he hc hm hp => ?_, fun p message => ?_⟩
  · have run := runsTo_commands hp
    rw [runWords_sumCommands s.params (r := regsOf s) he, length_sumCommands] at run
    simpa [he, checksum16, absorb] using run
  · have run := runsTo_commands hp
    have start : regsOf s = ⟨s.params.init, false, false⟩ := by simp [regsOf, he, hc, hm]
    rw [start, runWords_updCommands_rd] at run
    simpa [he, hm, absorb] using run
  · rw [responseData_packResponse]
    rfl

/-- Settles O39: the run by `runWords_clr_updCommands_chk`, whose last response shows whether the trailer, read as one
16-bit value, is the checksum; `untrailer_eq_iff` says this byte by byte. -/
theorem verifyDecidesTheTrailer : Obligations.VerifyDecidesTheTrailer := by
  refine fun covered b0 b1 s rest => ⟨verifyCommands_append_pair covered b0 b1, fun he hp => ?_⟩
  have run := runsTo_commands (commands := .clr :: (updCommands covered ++ [.chk (untrailer b0 b1)])) hp
  rw [runWords_clr_updCommands_chk s.params (r := regsOf s) he] at run
  have noErr := responseErr_packResponse 0#16 (untrailer b0 b1 == checksum16 s.params covered) false
  refine ⟨_, _, by simpa using run, rfl, rfl, rfl, by simp, noErr, ?_, verifyVerdict_eq_checksumMismatch_iff noErr,
    compareVerdict_eq_verifyVerdict ..⟩
  rw [responseMatch_packResponse, beq_iff_eq]
  exact untrailer_eq_iff

/-- Settles O41: the emitted frame ends in the two bytes of the checksum, which is when O39 answers `match = 1`. -/
theorem appendedFramePassesVerify : Obligations.AppendedFramePassesVerify := by
  intro s message rest he
  have emitted : appendFrame message (packResponse (checksum16 s.params message) false false) =
      some (message ++ trailer (checksum16 s.params message)) := by
    simp [appendFrame]
  obtain ⟨expansion, verifies⟩ := verifyDecidesTheTrailer message (lowByte (checksum16 s.params message))
    (highByte (checksum16 s.params message)) s rest
  refine ⟨_, _, emitted, rfl, expansion, fun hp => ?_⟩
  obtain ⟨t, rw, run, -, -, crc, last, noErr, decides, -, -⟩ := verifies he hp
  have matched : responseMatch rw = true := decides.2 ⟨rfl, rfl⟩
  refine ⟨t, rw, by simpa using run, last, matched, noErr, ?_, crc⟩
  simp [verifyVerdict_of_unfaulted noErr, matched]

end Sys2Proof.Proofs

/-! ## The faulted state (60_exceptions.md) -/

namespace Sys2Proof.Machine

/-- Taking `IllegalCommand` on the whole state (R99). -/
theorem step_command_illegal {s : State} {cw : CommandWord} {rest : List PortInput}
    (hp : s.pending = .command cw :: rest) (he : s.errBit = false) (illegal : isIllegal cw = true) :
    step s = .next { s with
      errBit := true, pending := rest, responses := s.responses ++ [packResponse 0#16 s.matchBit true] } := by
  rw [step_command hp]
  cases hd : decode cw with
  | error why =>
    have taken := transition_illegal (p := s.params) (r := regsOf s) he hd
    refine congrArg _ (State.ext_fields ?_ ?_ ?_ ?_ ?_ ?_) <;> simp [taken]
  | ok i => simp [isIllegal_of_ok hd] at illegal

/-- The faulted state is kept by every run of words, each answered alike (R99). -/
theorem runWords_faulted (p : Params) {r : Regs} (he : r.errBit = true) (cws : List CommandWord) :
    runWords p r cws = (r, List.replicate cws.length (packResponse 0#16 r.matchBit true)) := by
  induction cws with
  | nil => rfl
  | cons cw cws ih =>
    rw [runWords, transition_faulted he, ih]
    rfl

end Sys2Proof.Machine

/-! ## Settled: the exceptions (60_exceptions.md) -/

namespace Sys2Proof.Proofs

open Sys2Proof.Machine

/-- Settles O24: the entry is `step_command_illegal`; the words after it are the fold of O17, which `runWords_faulted`
evaluates. -/
theorem illegalWordEntersTheFaultedState : Obligations.IllegalWordEntersTheFaultedState := by
  refine ⟨fun s cw rest => step_command_illegal, fun s cws rest hp he => ?_⟩
  have run := machineRefinesTheTransitionFold s cws rest hp
  rw [runWords_faulted s.params (r := regsOf s) he cws] at run
  exact run

end Sys2Proof.Proofs

/-! ## Reset and a missing `CLR` (70_reset_and_hazards.md) -/

namespace Sys2Proof.Machine

/-- The `CLR` of an unfaulted engine leaves the registers of the reset input (R110). -/
theorem regsOf_afterWord_clr {s : State} (he : s.errBit = false) :
    regsOf (afterWord (encode .clr) s) = regsOf (applyReset s) := by
  rw [regsOf_afterWord, transition_clr he (decode_encode _)]
  rfl

/-- Only the reset input takes `ERR` from 1 to 0 (R103). -/
theorem head_eq_reset_of_errBit_cleared {s t : State} (h : step s = .next t) (faulted : s.errBit = true)
    (cleared : t.errBit = false) : s.pending.head? = some .reset := by
  by_contra noReset
  have kept : t.errBit = true := (step_errBit_iff h).2 (.inl ⟨faulted, noReset⟩)
  simp [cleared] at kept

/-- The checksum of a message goes on from the checksum of what came before it (R60(c)). -/
theorem checksum16_append (p : Params) (earlier message : List Byte) :
    checksum16 p (earlier ++ message) = absorb p (checksum16 p earlier) message :=
  List.foldl_append

/-- Without `CLR` the `UPD`s fold on from the registers as they stand, and an empty message keeps `MATCH` (R114). -/
theorem runWords_updCommands_unfaulted (p : Params) {r : Regs} (he : r.errBit = false) (message : List Byte) :
    (runWords p r ((updCommands message).map encode)).1 =
      ⟨absorb p r.crc message, message.isEmpty && r.matchBit, false⟩ := by
  obtain ⟨c, m, e⟩ := r
  obtain rfl : e = false := he
  cases message with
  | nil => rfl
  | cons b message =>
    rw [updCommands, List.map_cons, List.map_cons, runWords, transition_upd rfl (decode_encode _)]
    exact congrArg Prod.fst (runWords_updCommands p (crcStep p c b) message)

end Sys2Proof.Machine

/-! ## Settled: reset and the hazards (70_reset_and_hazards.md) -/

namespace Sys2Proof.Proofs

open Sys2Proof.Machine

/-- Settles O2: the step is `applyReset`; `regsOf_afterWord_clr` compares it with `CLR`; the last clause is
`head_eq_reset_of_errBit_cleared`. -/
theorem resetInputIsTheOnlyWayToClearErr : Obligations.ResetInputIsTheOnlyWayToClearErr := by
  refine ⟨fun s rest => step_reset, fun s he => ?_, fun s t => head_eq_reset_of_errBit_cleared⟩
  have same := regsOf_afterWord_clr (s := setPending [] s) he
  exact ⟨_, _, step_reset rfl, step_command rfl, rfl, congrArg Regs.crc same.symm,
    congrArg Regs.matchBit same.symm, congrArg Regs.errBit same.symm⟩

/-- Settles O44: `RD` answers the accumulator that the `UPD`s leave by `runWords_updCommands_unfaulted`; from the checksum
of an earlier message that is the checksum of both by `checksum16_append`. -/
theorem missingClrRunsMessagesTogether : Obligations.MissingClrRunsMessagesTogether := by
  intro s message rest he hp
  have run := runsTo_commands hp
  have answers : (updCommands message ++ [Instr.rd]).length = message.length + 1 := by simp
  rw [answers, runWords_commands_concat, runWords_updCommands_unfaulted s.params (r := regsOf s) he,
    transition_rd rfl (decode_encode _), ← List.append_assoc] at run
  refine ⟨_, _, run, List.getLast?_concat, responseErr_packResponse .., responseData_packResponse ..,
    fun earlier hc => ?_⟩
  rw [responseData_packResponse, regsOf_crc, hc, checksum16_append]

end Sys2Proof.Proofs

/-! ## What every step keeps

The frame of a step, of a command and of a run of legal words, from the transition's registers and response. -/

namespace Sys2Proof.Machine

/-- Data in a response is `CRC` in answer to `RD`, and then `err = 0` (R44). -/
theorem responseData_transition_of_err {p : Params} {r : Regs} {cw : CommandWord}
    (err : responseErr (transition p r cw).2 = true) : responseData (transition p r cw).2 = 0#16 := by
  rw [responseErr_transition, transition_errBit] at err
  rw [responseData_transition, if_neg]
  rintro ⟨he, hd⟩
  simp [he, isIllegal_of_ok hd] at err

theorem flagsReported_afterWord {s : State} (cw : CommandWord) (h : FlagsReported s) :
    FlagsReported (afterWord cw s) where
  err_shown he := ⟨_, List.getLast?_concat, (responseErr_transition ..).trans he, responseMatch_transition ..⟩
  match_shown hm := ⟨_, List.getLast?_concat, (responseMatch_transition ..).trans hm⟩
  faulted_no_data rw mem err := by
    rw [afterWord_responses, List.mem_append, List.mem_singleton] at mem
    obtain earlier | rfl := mem
    · exact h.faulted_no_data rw earlier err
    · exact responseData_transition_of_err err

/-- With both flags 0 only the responses matter. -/
theorem flagsReported_of_flags_clear {s : State} (he : s.errBit = false) (hm : s.matchBit = false)
    (noData : ∀ rw ∈ s.responses, responseErr rw = true → responseData rw = 0#16) : FlagsReported s where
  err_shown set := by simp [he] at set
  match_shown set := by simp [hm] at set
  faulted_no_data := noData

/-- `FlagsReported` does not speak of the command port. -/
theorem flagsReported_setPending {s : State} (xs : List PortInput) (h : FlagsReported s) :
    FlagsReported (setPending xs s) :=
  ⟨h.err_shown, h.match_shown, h.faulted_no_data⟩

theorem step_params {s t : State} (h : step s = .next t) : t.params = s.params := by
  obtain ⟨-, rfl⟩ | ⟨rest, -, rfl⟩ | ⟨cw, rest, -, rfl⟩ := step_cases h
  · rfl
  · rfl
  · rfl

theorem pendingWords_of_command {s : State} {cw : CommandWord} {rest : List PortInput}
    (hp : s.pending = .command cw :: rest) : pendingWords s = pendingWords (setPending rest s) + 1 := by
  simp [pendingWords, hp]

theorem pendingWords_of_reset {s : State} {rest : List PortInput} (hp : s.pending = .reset :: rest) :
    pendingWords s = pendingWords (setPending rest s) := by
  simp [pendingWords, hp]

/-- One response for each command word taken from the port (R44). -/
theorem step_responses_add_pendingWords {s t : State} (h : step s = .next t) :
    t.responses.length + pendingWords t = s.responses.length + pendingWords s := by
  obtain ⟨-, rfl⟩ | ⟨rest, hp, rfl⟩ | ⟨cw, rest, hp, rfl⟩ := step_cases h
  · rfl
  · rw [pendingWords_of_reset hp]
    rfl
  · have port : pendingWords (afterWord cw (setPending rest s)) = pendingWords (setPending rest s) := rfl
    rw [pendingWords_of_command hp, port, afterWord_responses, List.length_append, setPending_responses]
    exact Nat.add_right_comm ..

/-! ### A command as its word -/

/-- A command's meaning is the transition on the word that encodes it, faulted or not. -/
theorem exec_eq_afterWord (i : Instr) (s : State) : exec i s = .next (afterWord (encode i) s) := by
  rw [← execute_eq, execute, decode_encode]

/-- Only `CLR` and `UPD` write `CRC` (R11). -/
theorem transition_crc_of_not_clr_upd (p : Params) (r : Regs) {i : Instr} (clr : i ≠ .clr) (upd : ∀ b, i ≠ .upd b) :
    (transition p r (encode i)).1.crc = r.crc := by
  rw [transition_crc, crcAfter, decode_encode]
  cases i with
  | nop => simp
  | clr => exact absurd rfl clr
  | upd b => exact absurd rfl (upd b)
  | rd => simp
  | chk x => simp

/-- `NOP` and `RD` change no register (R71, R74). -/
theorem transition_regs_of_nop_or_rd (p : Params) (r : Regs) {i : Instr} (h : i = .nop ∨ i = .rd) :
    (transition p r (encode i)).1 = r := by
  cases he : r.errBit with
  | true => rw [transition_faulted he]
  | false =>
    obtain rfl | rfl := h
    · rw [transition_nop he (decode_encode _)]
    · rw [transition_rd he (decode_encode _)]

/-- A second `CLR` or `CHK` finds what the first one left, and a second `NOP` or `RD` what they all leave. -/
theorem transition_regs_idempotent (p : Params) (r : Regs) {i : Instr} (upd : ∀ b, i ≠ .upd b) :
    (transition p (transition p r (encode i)).1 (encode i)).1 = (transition p r (encode i)).1 := by
  cases he : r.errBit with
  | true => rw [transition_faulted he, transition_faulted he]
  | false =>
    cases i with
    | nop => simp [transition_regs_of_nop_or_rd]
    | clr => rw [transition_clr he (decode_encode _), transition_clr rfl (decode_encode _)]
    | upd b => exact absurd rfl (upd b)
    | rd => simp [transition_regs_of_nop_or_rd]
    | chk x => rw [transition_chk he (decode_encode _), transition_chk rfl (decode_encode _)]

@[simp] theorem transition_errBit_encode (p : Params) (r : Regs) (i : Instr) :
    (transition p r (encode i)).1.errBit = r.errBit := by
  rw [transition_errBit, isIllegal_of_ok (decode_encode i), Bool.or_false]

/-! ### Good runs -/

/-- From an unfaulted engine the first illegal word is the first response with `err = 1`. -/
theorem runWords_good_iff (p : Params) {r : Regs} (he : r.errBit = false) (cws : List CommandWord) :
    (∀ rw ∈ (runWords p r cws).2, responseErr rw = false) ↔ ∀ cw ∈ cws, isIllegal cw = false := by
  induction cws generalizing r with
  | nil => simp [runWords]
  | cons cw cws ih =>
    have next : (transition p r cw).1.errBit = isIllegal cw := by rw [transition_errBit, he, Bool.false_or]
    rw [runWords, List.forall_mem_cons, List.forall_mem_cons, responseErr_transition, next]
    exact and_congr_right fun legal => ih (next.trans legal)

end Sys2Proof.Machine

/-! ## Settled: the steps and the ports -/

namespace Sys2Proof.Proofs

open Sys2Proof.Machine

/-- Settles O25: an idle step changes nothing, reset clears both flags, and a word's response carries the flags it leaves
by `flagsReported_afterWord`. -/
theorem stepKeepsFlagsReported : Obligations.StepKeepsFlagsReported := by
  intro s t reported h
  obtain ⟨-, rfl⟩ | ⟨rest, -, rfl⟩ | ⟨cw, rest, -, rfl⟩ := step_cases h
  · exact reported
  · exact flagsReported_of_flags_clear rfl rfl reported.faulted_no_data
  · exact flagsReported_afterWord cw (flagsReported_setPending rest reported)

/-- Settles O26: after reset both flags are 0 and there is no response. -/
theorem resetMeetsFlagsReported : Obligations.ResetMeetsFlagsReported := by
  refine ⟨flagsReported_of_flags_clear rfl rfl ?_, fun p inputs => flagsReported_of_flags_clear rfl rfl ?_⟩
  · simp [State.reset]
  · simp

/-- Settles O8: a command is the transition on its word; what it leaves of `CRC` and `MATCH` are
`transition_crc_of_not_clr_upd`, `transition_regs_of_nop_or_rd` and `transition_faulted`. -/
theorem commandsChangeOnlyWhatTheyName : Obligations.CommandsChangeOnlyWhatTheyName := by
  refine fun i s => ⟨_, _, exec_eq_afterWord i s, afterWord_responses _ _, rfl, fun k => rfl, rfl,
    transition_errBit_encode .., transition_crc_of_not_clr_upd _ _, fun h => ?_, fun he => ?_⟩
  · exact congrArg Regs.matchBit (transition_regs_of_nop_or_rd s.params (regsOf s) h)
  · simp [transition_faulted (r := regsOf s) he]

/-- Settles O9: `transition_regs_idempotent` and `transition_regs_of_nop_or_rd`; under `PARAMS_ARC` a second `UPD 01`
moves the accumulator on from 0xC0C1. -/
theorem allCommandsButUpdAreIdempotent : Obligations.AllCommandsButUpdAreIdempotent := by
  refine ⟨fun i s upd => ⟨_, _, exec_eq_afterWord i s, exec_eq_afterWord i _, ?_⟩,
    fun i s h => ⟨_, exec_eq_afterWord i s, transition_regs_of_nop_or_rd _ _ h⟩,
    1#8, State.resetWith paramsArc, _, _, exec_upd_unfaulted 1#8 rfl, exec_upd_unfaulted 1#8 rfl, by decide⟩
  exact transition_regs_idempotent s.params (regsOf s) upd

/-- Settles O10: the step takes the word from the port, and `execute` dispatches on what it decodes to. -/
theorem stepRunsTheDecodedCommand : Obligations.StepRunsTheDecodedCommand := by
  intro s cw rest i hp hd
  rw [step_of_pending hp, accept, execute, hd]
  rfl

/-- Settles O11, by `step_idle`. -/
theorem idleEngineHoldsItsState : Obligations.IdleEngineHoldsItsState :=
  fun _ => step_idle

/-- Settles O12: by the kind of input at the head of the port, each with its own step lemma. -/
theorem everyStepAnswersANextState : Obligations.EveryStepAnswersANextState := by
  intro s
  cases hp : s.pending with
  | nil => exact ⟨_, step_idle hp, hp⟩
  | cons x rest =>
    cases x with
    | command cw => exact ⟨_, step_command hp, rfl⟩
    | reset => exact ⟨_, step_reset hp, rfl⟩

/-- Settles O15, by `step_responses_add_pendingWords`. -/
theorem responsesPlusPendingWordsIsConstant : Obligations.ResponsesPlusPendingWordsIsConstant :=
  fun _ _ _ count h => (step_responses_add_pendingWords h).trans count

/-- Settles O18: the response is the transition's, whose data is 0 unless the command is `RD` and the engine unfaulted,
and then `err` would be 0. -/
theorem meaninglessDataIsZero : Obligations.MeaninglessDataIsZero := by
  intro i s t rw h hr meaningless
  rw [exec_eq_afterWord] at h
  cases h
  obtain rfl : (transition s.params (regsOf s) (encode i)).2 = rw := by simpa using hr
  rw [responseData_transition, if_neg]
  rintro ⟨he, hd⟩
  rw [decode_encode] at hd
  cases hd
  rw [dataMeaningful, responseErr_transition, transition_errBit_encode, he] at meaningless
  simp at meaningless

/-- Settles O19, by `step_params`. -/
theorem configurationNeverChanges : Obligations.ConfigurationNeverChanges :=
  fun _ _ h => ⟨step_params h, fun i => congrArg (lookup · i) (step_params h)⟩

/-- Settles O20: the run is the fold of O17 from the unfaulted registers of reset, and `runWords_good_iff` says when its
responses are good. -/
theorem goodRunsAreTheLegalOnes : Obligations.GoodRunsAreTheLegalOnes := by
  intro p cws t run
  have fold := machineRefinesTheTransitionFold (present (cws.map .command) (State.resetWith p)) cws [] (by simp)
  obtain rfl := runsTo_unique run fold
  exact runWords_good_iff p rfl cws

end Sys2Proof.Proofs

/-! ## The flags over a list of commands, and the bits of a response -/

namespace Sys2Proof.Machine

section Commands

variable (p : Params) {r : Regs}

/-- Commands set no `ERR` (R99). -/
theorem runWords_commands_errBit (he : r.errBit = false) (commands : List Instr) :
    (runWords p r (commands.map encode)).1.errBit = false := by
  induction commands generalizing r with
  | nil => exact he
  | cons i commands ih => exact ih ((transition_errBit_encode p r i).trans he)

/-! ### The accumulator moves by absorbed bytes only (R92) -/

theorem absorbedBytes_cons_of_not_upd {i : Instr} (upd : ∀ b, i ≠ .upd b) (commands : List Instr) :
    absorbedBytes (i :: commands) = absorbedBytes commands := by
  cases i with
  | upd b => exact absurd rfl (upd b)
  | nop | clr | rd | chk x => rfl

theorem runWords_commands_crc (he : r.errBit = false) {commands : List Instr} (noClr : Instr.clr ∉ commands) :
    (runWords p r (commands.map encode)).1.crc = absorb p r.crc (absorbedBytes commands) := by
  induction commands generalizing r with
  | nil => rfl
  | cons i commands ih =>
    rw [List.mem_cons, not_or] at noClr
    obtain ⟨notClr, noClr⟩ := noClr
    have others := ih (r := (transition p r (encode i)).1) ((transition_errBit_encode p r i).trans he) noClr
    refine others.trans ?_
    by_cases isUpd : ∃ b, i = .upd b
    · obtain ⟨b, rfl⟩ := isUpd
      rw [transition_upd he (decode_encode _)]
      rfl
    · have notUpd : ∀ b, i ≠ .upd b := not_exists.1 isUpd
      rw [transition_crc_of_not_clr_upd p r (Ne.symm notClr) notUpd, absorbedBytes_cons_of_not_upd notUpd]

/-! ### A set `MATCH` and the `CHK` it comes from (R13, R117) -/

/-- The commands end in a `CHK` of `c` with only `NOP` and `RD` after it, and a `CHK` is current. -/
def EndInChkOf (c : Word) (commands : List Instr) : Prop :=
  chkCurrent commands = true ∧
    ∃ before after, commands = before ++ .chk c :: after ∧ ∀ i ∈ after, i = .nop ∨ i = .rd

theorem endInChkOf_concat_chk (c : Word) (commands : List Instr) : EndInChkOf c (commands ++ [.chk c]) :=
  ⟨by simp [chkCurrent], commands, [], rfl, by simp⟩

theorem EndInChkOf.concat_nop_or_rd {c : Word} {commands : List Instr} {i : Instr} (quiet : i = .nop ∨ i = .rd)
    (h : EndInChkOf c commands) : EndInChkOf c (commands ++ [i]) := by
  obtain ⟨current, before, after, rfl, quietAfter⟩ := h
  refine ⟨?_, before, after ++ [i], by simp, by simpa [or_imp, forall_and] using ⟨quietAfter, quiet⟩⟩
  rw [chkCurrent, List.foldl_concat]
  obtain rfl | rfl := quiet
  · exact current
  · exact current

theorem endInChkOf_of_matchBit (he : r.errBit = false) (hm : r.matchBit = false) (commands : List Instr)
    (set : (runWords p r (commands.map encode)).1.matchBit = true) :
    EndInChkOf (runWords p r (commands.map encode)).1.crc commands := by
  induction commands using List.reverseRecOn with
  | nil => exact absurd (hm.symm.trans set) Bool.false_ne_true
  | append_singleton commands last ih =>
    have unfaulted := runWords_commands_errBit p he commands
    rw [runWords_commands_concat] at set ⊢
    by_cases quiet : last = .nop ∨ last = .rd
    · rw [transition_regs_of_nop_or_rd p _ quiet] at set ⊢
      exact (ih set).concat_nop_or_rd quiet
    · cases last with
      | nop => simp at quiet
      | clr => simp [transition_clr unfaulted (decode_encode _)] at set
      | upd b => simp [transition_upd unfaulted (decode_encode _)] at set
      | rd => simp at quiet
      | chk x =>
        rw [transition_chk unfaulted (decode_encode _)] at set ⊢
        obtain rfl := eq_of_beq set
        exact endInChkOf_concat_chk ..

end Commands

/-! ### The bits of a response word -/

theorem packResponse_eq_statusOf_append (data : Word) (m e : Bool) : packResponse data m e = statusOf m e ++ data :=
  rfl

theorem toNat_statusOf (m e : Bool) : (statusOf m e).toNat = e.toNat * 2 + m.toNat := by
  cases m <;> cases e <;> rfl

theorem toNat_packResponse (data : Word) (m e : Bool) :
    (packResponse data m e).toNat = e.toNat * 2 ^ 17 + m.toNat * 2 ^ 16 + data.toNat := by
  rw [packResponse_eq_statusOf_append, BitVec.toNat_append, ← Nat.shiftLeft_add_eq_or_of_lt data.isLt,
    Nat.shiftLeft_eq, toNat_statusOf]
  omega

theorem responseStatus_packResponse (data : Word) (m e : Bool) :
    responseStatus (packResponse data m e) = statusOf m e :=
  BitVec.extractLsb'_append_eq_left

end Sys2Proof.Machine

/-! ## Settled: the flags and the responses -/

namespace Sys2Proof.Proofs

open Sys2Proof.Machine

/-- Settles O22: the run's registers are those of the fold, where `endInChkOf_of_matchBit` finds the `CHK`. -/
theorem aSetMatchComesFromACurrentChk : Obligations.ASetMatchComesFromACurrentChk := by
  intro s t commands rest he hm hp run set
  obtain rfl := runsTo_unique run (runsTo_commands hp)
  exact endInChkOf_of_matchBit s.params (r := regsOf s) he hm commands set

/-- Settles O38: the idle step; the run over the commands, `ERR` by `runWords_commands_errBit` and `CRC` by
`runWords_commands_crc`. -/
theorem onlyAbsorbedBytesMoveTheAccumulator : Obligations.OnlyAbsorbedBytesMoveTheAccumulator :=
  ⟨fun _ => step_idle, fun s commands _ he noClr hp => ⟨_, runsTo_commands hp,
    runWords_commands_errBit s.params (r := regsOf s) he commands, rfl, rfl,
    runWords_commands_crc s.params (r := regsOf s) he noClr⟩⟩

/-- Settles O14: the value by `toNat_packResponse`, the fields and `STATUS` by their read-back lemmas. -/
theorem responseWordHasTheFieldsInPlace : Obligations.ResponseWordHasTheFieldsInPlace :=
  fun data m e => ⟨toNat_packResponse data m e, responseErr_packResponse data m e, responseMatch_packResponse data m e,
    responseData_packResponse data m e, responseStatus_packResponse data m e, toNat_statusOf m e⟩

end Sys2Proof.Proofs

/-! ## The match/mask rows (30_encoding.md section 2)

A row tests the two fields of a word separately, so each of R42's five rows is a condition on `op` and the operand. -/

namespace Sys2Proof

open Machine

theorem ofFields_eq_iff {f g : CmdFields} : ofFields f = ofFields g ↔ f.op = g.op ∧ f.arg = g.arg := by
  constructor
  · intro h
    exact ⟨by simpa using congrArg opField h, by simpa using congrArg argField h⟩
  · rintro ⟨op, arg⟩
    rw [ofFields, ofFields, op, arg]

theorem rowSelects_iff (name : String) (pattern mask : CmdFields) (cw : CommandWord) :
    rowSelects ⟨name, ofFields pattern, ofFields mask⟩ cw = true ↔
      opField cw &&& mask.op = pattern.op ∧ argField cw &&& mask.arg = pattern.arg := by
  rw [rowSelects, beq_iff_eq]
  have fieldwise : cw &&& ofFields mask = ofFields ⟨opField cw &&& mask.op, argField cw &&& mask.arg⟩ := by
    conv_lhs => rw [← ofFields_fields cw]
    exact BitVec.and_append
  rw [fieldwise, ofFields_eq_iff]

/-- The mask of `UPD`'s row keeps the high operand byte (R42). -/
theorem and_FF00_eq_zero_iff (a : Word) : a &&& 0xFF00#16 = 0#16 ↔ argHigh a = 0#8 := by
  have bytes : a &&& 0xFF00#16 = argHigh a ++ 0#8 := by
    conv_lhs => rw [← argHigh_append_argLow a]
    exact BitVec.and_append.trans (congrArg₂ _ BitVec.and_allOnes BitVec.and_zero)
  rw [bytes]
  exact BitVec.append_left_inj (s₂ := 0#8) 0#8

/-- R42's rows by their fields. -/
theorem opRows_eq_ofFields : opRows =
    [⟨"NOP", ofFields ⟨0x0#4, 0#16⟩, ofFields ⟨BitVec.allOnes 4, BitVec.allOnes 16⟩⟩,
     ⟨"CLR", ofFields ⟨0x1#4, 0#16⟩, ofFields ⟨BitVec.allOnes 4, BitVec.allOnes 16⟩⟩,
     ⟨"UPD", ofFields ⟨0x2#4, 0#16⟩, ofFields ⟨BitVec.allOnes 4, 0xFF00#16⟩⟩,
     ⟨"RD", ofFields ⟨0x3#4, 0#16⟩, ofFields ⟨BitVec.allOnes 4, BitVec.allOnes 16⟩⟩,
     ⟨"CHK", ofFields ⟨0x4#4, 0#16⟩, ofFields ⟨BitVec.allOnes 4, 0#16⟩⟩] := rfl

/-- The rows that select a word name the command it decodes to, or none. -/
theorem mnemonics_of_selecting_rows (cw : CommandWord) :
    (opRows.filter fun r => rowSelects r cw).map OpRow.mnemonic = ((decode cw).toOption.map mnemonicOf).toList := by
  simp only [opRows_eq_ofFields, List.filter_cons, rowSelects_iff, BitVec.and_allOnes, BitVec.and_zero,
    and_FF00_eq_zero_iff, toOption_decode, List.filter_nil]
  obtain hop | hop | hop | hop | hop | hop := op_cases (opField cw)
  · by_cases operand : argField cw = 0#16 <;> simp [hop, operand, mnemonicOf]
  · by_cases operand : argField cw = 0#16 <;> simp [hop, operand, mnemonicOf]
  · by_cases operand : argHigh (argField cw) = 0#8 <;> simp [hop, operand, mnemonicOf]
  · by_cases operand : argField cw = 0#16 <;> simp [hop, operand, mnemonicOf]
  · simp [hop, mnemonicOf]
  · simp [op_ne_of_reserved hop]

end Sys2Proof

/-! ## Settled: the rows and the written words (30_encoding.md section 2) -/

namespace Sys2Proof.Proofs

open Sys2Proof.Machine

/-- Settles O29: both clauses are `mnemonics_of_selecting_rows`, for a word that decodes and for one that does not. -/
theorem matchMaskRowsAgreeWithDecode : Obligations.MatchMaskRowsAgreeWithDecode := by
  refine ⟨fun cw i hd => ?_, fun cw illegal => ?_⟩
  · rw [mnemonics_of_selecting_rows, hd]
    rfl
  · have rows := mnemonics_of_selecting_rows cw
    rw [isIllegal_eq_isNone, Option.isNone_iff_eq_none] at illegal
    rw [illegal] at rows
    exact List.map_eq_nil_iff.1 rows

/-- Settles O28, by evaluating the decoder on the written words. -/
theorem writtenWordsDecode : Obligations.WrittenWordsDecode :=
  ⟨rfl, rfl, rfl, rfl, rfl, by decide, by decide, by decide, by decide, by decide⟩

end Sys2Proof.Proofs

/-! ## The named tables (40_crc_function.md section 4)

Both tables are generated by a linear bit loop, which gives `LIN`; with `LIN` an entry-by-entry look for zeros gives the
rest (R62 to R64). -/

namespace Sys2Proof.Machine

/-! ### What `LIN` gives any table -/

section Linear

variable {p : Params}

theorem tableT0_of_lin (lin : TableLIN p) : TableT0 p := by
  have sum := lin 0#8 0#8
  rwa [BitVec.xor_self, BitVec.xor_self] at sum

theorem tableINJ_of_lin (lin : TableLIN p) (zeroOnly : ∀ i : Byte, lookup p i = 0#16 → i = 0#8) : TableINJ p := by
  intro i j same
  have sum := lin i j
  rw [same, BitVec.xor_self] at sum
  exact BitVec.xor_eq_zero_iff.1 (zeroOnly _ sum)

end Linear

/-! ### The generator loops are linear -/

/-- One bit of a generator loop: a linear shift, and the polynomial where the bit moved out is 1. -/
theorem xor_of_conditional_xor {shift : Word → Word} (linear : ∀ x y, shift (x ^^^ y) = shift x ^^^ shift y)
    (poly : Word) (out : Nat) (x y : Word) :
    (if (x ^^^ y).getLsbD out then shift (x ^^^ y) ^^^ poly else shift (x ^^^ y)) =
      (if x.getLsbD out then shift x ^^^ poly else shift x) ^^^
        (if y.getLsbD out then shift y ^^^ poly else shift y) := by
  rw [BitVec.getLsbD_xor, linear]
  cases x.getLsbD out with
  | false =>
    cases y.getLsbD out with
    | false => simp
    | true => simp [BitVec.xor_assoc]
  | true =>
    cases y.getLsbD out with
    | false => simp [BitVec.xor_assoc, BitVec.xor_comm poly]
    | true =>
      have twice : (shift x ^^^ poly) ^^^ (shift y ^^^ poly) = (shift x ^^^ shift y) ^^^ (poly ^^^ poly) := by ac_rfl
      simp [twice]

theorem arcBitStep_xor (x y : Word) : arcBitStep (x ^^^ y) = arcBitStep x ^^^ arcBitStep y :=
  xor_of_conditional_xor (shift := (· >>> 1)) (fun _ _ => BitVec.ushiftRight_xor_distrib ..) 0xA001#16 0 x y

theorem msbBitStep_xor (x y : Word) : msbBitStep (x ^^^ y) = msbBitStep x ^^^ msbBitStep y :=
  xor_of_conditional_xor (shift := (· <<< 1)) (fun _ _ => BitVec.shiftLeft_xor_distrib ..) 0x8005#16 15 x y

theorem repeat_xor {f : Word → Word} (linear : ∀ x y, f (x ^^^ y) = f x ^^^ f y) (n : Nat) (x y : Word) :
    Nat.repeat f n (x ^^^ y) = Nat.repeat f n x ^^^ Nat.repeat f n y := by
  induction n with
  | zero => rfl
  | succ n ih => rw [Nat.repeat, ih, linear]; rfl

theorem arcEntry_xor (i j : Byte) : arcEntry (i ^^^ j) = arcEntry i ^^^ arcEntry j := by
  rw [arcEntry, BitVec.setWidth_xor]
  exact repeat_xor arcBitStep_xor 8 _ _

theorem msbEntry_xor (i j : Byte) : msbEntry (i ^^^ j) = msbEntry i ^^^ msbEntry j := by
  have start : (i ^^^ j) ++ 0#8 = (i ++ 0#8) ^^^ (j ++ 0#8) := by rw [BitVec.xor_append, BitVec.xor_self]
  rw [msbEntry, start]
  exact repeat_xor msbBitStep_xor 8 _ _

/-! ### The entries -/

theorem get_map_range (entry : Nat → Word) (size : ((List.range 256).map entry).toArray.size = 256) (i : Fin 256) :
    (⟨((List.range 256).map entry).toArray, size⟩ : Vector Word 256).get i = entry i := by
  simp [Vector.get]

/-- The printed entries are the generated ones (R62). -/
theorem tableArcEntries_eq_map_arcEntry :
    tableArcEntries = (List.range 256).map fun n => arcEntry (BitVec.ofNat 8 n) := by
  decide +kernel

theorem lookup_paramsArc (i : Byte) : lookup paramsArc i = arcEntry i := by
  have entry : lookup paramsArc i = arcEntry (BitVec.ofNat 8 i.toNat) := by
    simp only [lookup, paramsArc, tableArc, tableArcEntries_eq_map_arcEntry]
    exact get_map_range ..
  rw [entry, BitVec.ofNat_toNat, BitVec.setWidth_eq]

theorem lookup_paramsMsb (i : Byte) : lookup paramsMsb i = msbEntry i := by
  have entry : lookup paramsMsb i = msbEntry (BitVec.ofNat 8 i.toNat) := get_map_range ..
  rw [entry, BitVec.ofNat_toNat, BitVec.setWidth_eq]

theorem tableLIN_paramsArc : TableLIN paramsArc := fun i j => by
  rw [lookup_paramsArc, lookup_paramsArc, lookup_paramsArc, arcEntry_xor]

theorem tableLIN_paramsMsb : TableLIN paramsMsb := fun i j => by
  rw [lookup_paramsMsb, lookup_paramsMsb, lookup_paramsMsb, msbEntry_xor]

theorem highByte_arcEntry_eq_zero : ∀ i : Byte, highByte (arcEntry i) = 0#8 → i = 0#8 := by
  decide +kernel

theorem tableHI0_paramsArc : TableHI0 paramsArc := fun i high =>
  highByte_arcEntry_eq_zero i (by rwa [lookup_paramsArc] at high)

theorem msbEntry_eq_zero : ∀ i : Byte, msbEntry i = 0#16 → i = 0#8 := by
  decide +kernel

end Sys2Proof.Machine

/-! ## The least significant byte first (40_crc_function.md section 4, 42_sequences.md section 4)

Under `LSB_FIRST` the high byte after a step is the high byte of the table entry alone, so `HI0` finds the index from it. -/

namespace Sys2Proof.Machine

theorem highByte_xor (x y : Word) : highByte (x ^^^ y) = highByte x ^^^ highByte y :=
  BitVec.extractLsb'_xor

@[simp] theorem highByte_ushiftRight_eight (c : Word) : highByte (c >>> 8) = 0#8 := by
  rw [ushiftRight_eight_eq_zero_append_highByte]
  exact BitVec.extractLsb'_append_eq_left

@[simp] theorem lowByte_ushiftRight_eight (c : Word) : lowByte (c >>> 8) = highByte c := by
  rw [ushiftRight_eight_eq_zero_append_highByte]
  exact BitVec.extractLsb'_append_eq_right

theorem word_ext {v w : Word} (low : lowByte v = lowByte w) (high : highByte v = highByte w) : v = w := by
  rw [← untrailer_lowByte_highByte v, low, high, untrailer_lowByte_highByte]

section LsbFirst

variable {p : Params} (lsb : p.dir = .lsbFirst)

include lsb

theorem highByte_crcStep (c : Word) (b : Byte) :
    highByte (crcStep p c b) = highByte (lookup p (lowByte c ^^^ b)) := by
  rw [crcStep_of_lsbFirst lsb, highByte_xor, highByte_ushiftRight_eight, BitVec.zero_xor]

/-! ### A step loses nothing (R65) -/

section Lossless

variable (lin : TableLIN p) (hi0 : TableHI0 p)

include lin hi0

/-- Equal accumulators after a step came from the same index, and so from the same shifted accumulator. -/
theorem eq_index_of_crcStep_eq {c c' : Word} {b b' : Byte} (same : crcStep p c b = crcStep p c' b') :
    lowByte c ^^^ b = lowByte c' ^^^ b' ∧ highByte c = highByte c' := by
  have index : lowByte c ^^^ b = lowByte c' ^^^ b' := by
    have high := congrArg highByte same
    rw [highByte_crcStep lsb, highByte_crcStep lsb] at high
    refine BitVec.xor_eq_zero_iff.1 (hi0 _ ?_)
    rw [lin, highByte_xor, high, BitVec.xor_self]
  rw [crcStep_of_lsbFirst lsb, crcStep_of_lsbFirst lsb, index, BitVec.xor_left_inj] at same
  exact ⟨index, by simpa using congrArg lowByte same⟩

theorem crcStep_left_injective (b : Byte) : Function.Injective (crcStep p · b) := by
  intro c c' same
  obtain ⟨index, high⟩ := eq_index_of_crcStep_eq lsb lin hi0 same
  exact word_ext ((BitVec.xor_left_inj b).1 index) high

theorem crcStep_right_injective (c : Word) : Function.Injective (crcStep p c) := by
  intro b b' same
  obtain ⟨index, -⟩ := eq_index_of_crcStep_eq lsb lin hi0 same
  exact (BitVec.xor_right_inj (lowByte c)).1 index

theorem absorb_injective (message : List Byte) : Function.Injective (absorb p · message) := by
  induction message with
  | nil => exact fun _ _ same => same
  | cons b message ih => exact ih.comp (crcStep_left_injective lsb lin hi0 b)

theorem checksum16_ne_of_one_byte {b b' : Byte} (differ : b ≠ b') (before after : List Byte) :
    checksum16 p (before ++ b :: after) ≠ checksum16 p (before ++ b' :: after) := by
  rw [checksum16_append, checksum16_append]
  intro same
  exact differ (crcStep_right_injective lsb lin hi0 _ (absorb_injective lsb lin hi0 after same))

end Lossless

/-! ### The residue (R89) -/

/-- Absorbing its own low byte only shifts the accumulator. -/
theorem crcStep_lowByte (t0 : TableT0 p) (c : Word) : crcStep p c (lowByte c) = c >>> 8 := by
  rw [crcStep_of_lsbFirst lsb, BitVec.xor_self, t0, BitVec.xor_zero]

theorem absorb_trailer (t0 : TableT0 p) (c : Word) : absorb p c (trailer c) = 0#16 := by
  have first : crcStep p c (lowByte c) = c >>> 8 := crcStep_lowByte lsb t0 c
  have second : crcStep p (c >>> 8) (highByte c) = c >>> 8 >>> 8 := by
    simpa using crcStep_lowByte lsb t0 (c >>> 8)
  have shifted : c >>> 8 >>> 8 = 0#16 := by
    rw [ushiftRight_eight_eq_zero_append_highByte (c >>> 8), highByte_ushiftRight_eight]
    rfl
  rw [trailer, absorb, List.foldl_cons, List.foldl_cons, first, second, shifted, List.foldl_nil]

theorem eq_lowByte_of_highByte_crcStep (hi0 : TableHI0 p) {c : Word} {b : Byte}
    (high : highByte (crcStep p c b) = 0#8) : b = lowByte c := by
  rw [highByte_crcStep lsb] at high
  exact (BitVec.xor_eq_zero_iff.1 (hi0 _ high)).symm

theorem eq_trailer_of_absorb_eq_zero (t0 : TableT0 p) (hi0 : TableHI0 p) {c : Word} {b0 b1 : Byte}
    (residue : absorb p c [b0, b1] = 0#16) : [b0, b1] = trailer c := by
  have last : crcStep p (crcStep p c b0) b1 = 0#16 := residue
  obtain rfl := eq_lowByte_of_highByte_crcStep lsb hi0 (congrArg highByte last)
  rw [crcStep_lowByte lsb t0] at last
  have high : highByte (crcStep p c b0) = 0#8 := 
    (lowByte_ushiftRight_eight _).symm.trans (congrArg lowByte last)
  obtain rfl := eq_lowByte_of_highByte_crcStep lsb hi0 high
  rw [crcStep_lowByte lsb t0, lowByte_ushiftRight_eight]
  rfl

theorem residue_eq_zero_of_trailer (t0 : TableT0 p) {covered : List Byte} {b0 b1 : Byte}
    (correct : [b0, b1] = checksum p covered) : checksum16 p (covered ++ [b0, b1]) = 0#16 := by
  rw [checksum16_append, correct]
  exact absorb_trailer lsb t0 _

theorem trailer_of_residue_eq_zero (t0 : TableT0 p) (hi0 : TableHI0 p) {covered : List Byte} {b0 b1 : Byte}
    (residue : checksum16 p (covered ++ [b0, b1]) = 0#16) : [b0, b1] = checksum p covered := by
  rw [checksum16_append] at residue
  exact eq_trailer_of_absorb_eq_zero lsb t0 hi0 residue

theorem residue_eq_zero_iff (t0 : TableT0 p) (hi0 : TableHI0 p) {covered : List Byte} {b0 b1 : Byte} :
    checksum16 p (covered ++ [b0, b1]) = 0#16 ↔ [b0, b1] = checksum p covered :=
  ⟨trailer_of_residue_eq_zero lsb t0 hi0, residue_eq_zero_of_trailer lsb t0⟩

end LsbFirst

theorem pair_eq_checksum_iff {p : Params} {covered : List Byte} {b0 b1 : Byte} :
    [b0, b1] = checksum p covered ↔ b0 = lowByte (checksum16 p covered) ∧ b1 = highByte (checksum16 p covered) := by
  simp [checksum, trailer]

/-- `VERIFYR` is `SUM` of the whole frame (R89). -/
theorem runsTo_verifyr {s : State} {frame : List Byte} {rest : List PortInput} (he : s.errBit = false)
    (hp : s.pending = commandInputs (verifyrCommands frame) ++ rest) :
    ∃ t, runsTo (frame.length + 2) s t ∧ t.matchBit = false ∧
      t.responses.getLast? = some (packResponse (checksum16 s.params frame) false false) :=
  ⟨_, Proofs.sumReturnsTheChecksum.1 s frame rest he hp, rfl, List.getLast?_concat⟩

end Sys2Proof.Machine

/-! ## Settled: the tables and the checksum function (40_crc_function.md) -/

namespace Sys2Proof.Proofs

open Sys2Proof.Machine

/-- Settles O34: `lookup_paramsArc`, and the nine bytes absorbed. -/
theorem printedArcTableIsTheGeneratedOne : Obligations.PrintedArcTableIsTheGeneratedOne :=
  ⟨lookup_paramsArc, by decide⟩

/-- Settles O35: `LIN` from the generator loops, `T0` and `INJ` from `LIN`. -/
theorem namedTablesHaveTheNamedProperties : Obligations.NamedTablesHaveTheNamedProperties := by
  refine ⟨tableT0_of_lin tableLIN_paramsArc, tableLIN_paramsArc, tableINJ_of_lin tableLIN_paramsArc fun i zero => ?_,
    tableHI0_paramsArc, tableT0_of_lin tableLIN_paramsMsb, tableLIN_paramsMsb,
    tableINJ_of_lin tableLIN_paramsMsb fun i zero => ?_⟩
  · exact tableHI0_paramsArc i (congrArg highByte zero)
  · exact msbEntry_eq_zero i ((lookup_paramsMsb i).symm.trans zero)

/-- Settles O36: two messages that differ in one byte part there and never meet again, by `checksum16_ne_of_one_byte`. -/
theorem singleByteCorruptionChangesTheChecksum : Obligations.SingleByteCorruptionChangesTheChecksum :=
  ⟨fun _ lsb lin hi0 before after _ _ differ => checksum16_ne_of_one_byte lsb lin hi0 differ before after,
    fun before after _ _ differ =>
      checksum16_ne_of_one_byte rfl tableLIN_paramsArc tableHI0_paramsArc differ before after⟩

/-- Settles O32: the two forms of the step on one byte, and `checksum16_append`. -/
theorem checksumLawsForAnyParameters : Obligations.ChecksumLawsForAnyParameters :=
  ⟨fun _ => rfl, fun p b lsb => crcStep_of_lsbFirst lsb p.init b, fun p b msb => crcStep_of_msbFirst msb p.init b,
    checksum16_append, fun _ _ => rfl⟩

end Sys2Proof.Proofs

/-! ## Settled: the check by residue (42_sequences.md section 4) -/

namespace Sys2Proof.Proofs

open Sys2Proof.Machine

/-- Settles O42: the data of `VERIFYR` is the checksum of the whole frame, which is 0 by `residue_eq_zero_of_trailer` and
`trailer_of_residue_eq_zero`. Under `PARAMS_MSB` the one covered byte 01 has checksum 0x8005: its frame ends in 05 80 and
leaves a residue, the frame with the two bytes exchanged leaves none. -/
theorem residueCheckUnderItsConditions : Obligations.ResidueCheckUnderItsConditions := by
  refine ⟨fun s covered b0 b1 rest he hp => ?_,
    ⟨rfl, ⟨[0x01#8], by decide +kernel⟩, [0x01#8], 0x80#8, 0x05#8, by decide +kernel, by decide +kernel⟩,
    rfl, tableT0_of_lin tableLIN_paramsArc, tableHI0_paramsArc⟩
  obtain ⟨t, run, hm, last⟩ := runsTo_verifyr he hp
  refine ⟨t, _, by simpa using run, last, hm, responseErr_packResponse .., ?_, ?_⟩
  · rw [responseData_packResponse]
    exact fun lsb t0 => residue_eq_zero_of_trailer lsb t0
  · rw [responseData_packResponse]
    exact fun lsb t0 hi0 => trailer_of_residue_eq_zero lsb t0 hi0

/-- Settles O47: the residue of O42 is 0 exactly for the trailer that O39 answers `match = 1` for. -/
theorem residueVerdictIsTheVerifyVerdict : Obligations.ResidueVerdictIsTheVerifyVerdict := by
  intro s u covered b0 b1 commands rest rest' hs hu params lsb t0 hi0 hps expansion hpu
  obtain rfl := Option.some.inj ((verifyCommands_append_pair covered b0 b1).symm.trans expansion)
  obtain ⟨t, run, -, last⟩ := runsTo_verifyr hs hps
  obtain ⟨v, rw', run', -, -, -, last', noErr, decides, -, -⟩ :=
    (verifyDecidesTheTrailer covered b0 b1 u rest').2 hu hpu
  refine ⟨t, v, _, rw', by simpa using run, last, by simpa using run', last', ?_⟩
  have agree : checksum16 s.params (covered ++ [b0, b1]) = 0#16 ↔ responseMatch rw' = true :=
    ((residue_eq_zero_iff lsb t0 hi0).trans pair_eq_checksum_iff).trans (params ▸ decides).symm
  rw [verifyVerdict_of_unfaulted noErr]
  simp [residueVerdict, agree]

end Sys2Proof.Proofs

/-! ## The host's conclusions and the bounds of a frame (42_sequences.md, 60_exceptions.md section 1) -/

namespace Sys2Proof.Machine

theorem verifyVerdict_eq_engineFailed_iff (rw : ResponseWord) :
    verifyVerdict rw = .engineFailed ↔ responseErr rw = true := by
  cases he : responseErr rw with
  | true => simp [verifyVerdict, he]
  | false => cases hm : responseMatch rw <;> simp [verifyVerdict_of_unfaulted he, hm]

theorem verifyVerdict_eq_mismatch_iff_flags (rw : ResponseWord) :
    verifyVerdict rw = .checksumMismatch ↔ responseErr rw = false ∧ responseMatch rw = false := by
  cases he : responseErr rw with
  | true => simp [(verifyVerdict_eq_engineFailed_iff rw).2 he]
  | false => simp [verifyVerdict_eq_checksumMismatch_iff he]

theorem appendFrame_of_unfaulted (message : List Byte) (v : Word) (m : Bool) :
    appendFrame message (packResponse v m false) = some (message ++ trailer v) := by
  simp [appendFrame]

theorem appendFrame_of_err {message : List Byte} {rw : ResponseWord} (err : responseErr rw = true) :
    appendFrame message rw = none := by
  simp [appendFrame, err]

/-! ### Receiving (R91) -/

theorem frameLength_eq (l : Byte) : frameLength l = l.toNat + 8 := rfl

section Receive

variable {stream : List Byte} {l : Byte}

theorem receive_of_enough (h5 : stream[5]? = some l) (enough : frameLength l ≤ stream.length) :
    receive stream = .frame (stream.take (frameLength l)) := by
  simp [receive, h5, enough]

theorem receive_of_too_few (h5 : stream[5]? = some l) (few : stream.length < frameLength l) :
    receive stream = .incompleteFrame := by
  simp [receive, h5, Nat.not_le.2 few]

theorem receive_of_no_length_byte (short : stream.length < 6) : receive stream = .incompleteFrame := by
  have h5 : stream[5]? = none := List.getElem?_eq_none (by omega)
  simp [receive, h5]

end Receive

theorem coveredBytes_take {stream : List Byte} {n : Nat} (enough : n + 2 ≤ stream.length) :
    coveredBytes (stream.take (n + 2)) = stream.take n := by
  have length : (stream.take (n + 2)).length = n + 2 := List.length_take_of_le enough
  rw [coveredBytes, length, List.take_take]
  simp

theorem trailerBytes_take {stream : List Byte} {n : Nat} (enough : n + 2 ≤ stream.length) :
    trailerBytes (stream.take (n + 2)) = (stream.drop n).take 2 := by
  have length : (stream.take (n + 2)).length = n + 2 := List.length_take_of_le enough
  rw [trailerBytes, length, Nat.add_sub_cancel, List.drop_take, Nat.add_sub_cancel_left]

end Sys2Proof.Machine

/-! ## Settled: the host's side of the sequences -/

namespace Sys2Proof.Proofs

open Sys2Proof.Machine

/-- Settles O40, by `appendFrame_of_unfaulted` and `appendFrame_of_err`. -/
theorem appendEmitsMessageAndTrailer : Obligations.AppendEmitsMessageAndTrailer :=
  ⟨appendFrame_of_unfaulted, fun _ _ => appendFrame_of_err⟩

/-- Settles O43: the two verdicts by the flags of the response; the `CHK` and the `CLR` after it by their meanings in an
unfaulted engine. -/
theorem mismatchIsAVerdictNotAFault : Obligations.MismatchIsAVerdictNotAFault := by
  refine ⟨fun rw => ⟨verifyVerdict_eq_mismatch_iff_flags rw, verifyVerdict_eq_engineFailed_iff rw⟩,
    fun s x he differ => ⟨_, _, exec_chk_unfaulted x he, he, beq_false_of_ne differ, exec_clr_unfaulted he, ?_⟩⟩
  exact congrArg (Regs.mk s.params.init false) he

/-- Settles O45: the cases of `receive`, and the first `L + 6` bytes and the two after them of the frame taken. -/
theorem receivedFrameHasItsBounds : Obligations.ReceivedFrameHasItsBounds := by
  refine ⟨fun stream l h5 enough => ⟨_, receive_of_enough h5 enough, List.length_take_of_le enough,
      coveredBytes_take enough, trailerBytes_take enough⟩,
    fun stream l h5 few => receive_of_too_few h5 few, fun stream => receive_of_no_length_byte, fun l => ?_⟩
  rw [frameLength_eq]
  have byte := l.isLt
  omega

end Sys2Proof.Proofs

/-! ## The lines of a listing (30_encoding.md section 7)

A printed numeral reads back digit by digit, and a printed line has exactly the words it was printed from. -/

namespace Sys2Proof.Machine

/-! ### Numerals -/

@[simp] theorem hexValue_hexDigit : ∀ d : BitVec 4, hexValue (hexDigit d) = some d.toNat := by
  decide

theorem hexNumber_append (acc : Nat) (xs ys : List Char) :
    hexNumber acc (xs ++ ys) = (hexNumber acc xs).bind (hexNumber · ys) := by
  induction xs generalizing acc with
  | nil => rfl
  | cons c xs ih =>
    cases hc : hexValue c with
    | none => simp [hexNumber, hc]
    | some d => simp [hexNumber, hc, ih]

theorem hexNumber_hexDigitsOf {n k : Nat} (fits : n < 16 ^ k) : hexNumber 0 (hexDigitsOf n k) = some n := by
  induction k generalizing n with
  | zero => rw [hexDigitsOf, hexNumber, Nat.lt_one_iff.1 fits]
  | succ k ih =>
    have upper : n / 16 < 16 ^ k := Nat.div_lt_of_lt_mul (by rwa [← Nat.pow_succ'])
    have value : 16 * (n / 16) + n % 16 = n := Nat.div_add_mod n 16
    rw [hexDigitsOf, hexNumber_append, ih upper]
    simp [hexNumber, value]

@[simp] theorem length_hexDigitsOf (n k : Nat) : (hexDigitsOf n k).length = k := by
  induction k generalizing n with
  | zero => rfl
  | succ k ih => simp [hexDigitsOf, ih]

theorem parseOperand_hexNumeral {width k : Nat} (digits : 0 < k) (enough : 2 ^ width ≤ 16 ^ k) (v : BitVec width) :
    parseOperand width (hexNumeral k v.toNat) = some v := by
  have reads := hexNumber_hexDigitsOf (v.isLt.trans_le enough)
  cases numeral : hexDigitsOf v.toNat k with
  | nil => simpa [digits.ne'] using congrArg List.length numeral
  | cons d ds =>
    rw [numeral] at reads
    simp [parseOperand, hexNumeral, numeral, reads, v.isLt]

/-! ### The words of a line -/

/-- A character that stands inside a word of a line: no blank, and no start of a comment. -/
def wordChar (c : Char) : Bool := c != ';' && !(c == ' ' || c == '\t')

theorem wordChar_hexDigit : ∀ d : BitVec 4, wordChar (hexDigit d) = true := by
  decide

theorem wordChar_of_mem_hexDigitsOf {n k : Nat} : ∀ c ∈ hexDigitsOf n k, wordChar c = true := by
  induction k generalizing n with
  | zero => simp [hexDigitsOf]
  | succ k ih => simpa [hexDigitsOf, or_imp, forall_and, wordChar_hexDigit] using ih

theorem wordChar_of_mem_hexNumeral {k n : Nat} : ∀ c ∈ hexNumeral k n, wordChar c = true := by
  simpa [hexNumeral, show wordChar '0' = true from rfl, show wordChar 'x' = true from rfl] using
    wordChar_of_mem_hexDigitsOf

theorem ne_semicolon_of_wordChar {c : Char} (h : wordChar c = true) : (c != ';') = true :=
  (Bool.and_eq_true_iff.1 h).1

theorem not_blank_of_wordChar {c : Char} (h : wordChar c = true) : (c == ' ' || c == '\t') = false :=
  (Bool.not_eq_true' _).mp (Bool.and_eq_true_iff.1 h).2

/-- Two words with a blank between them. -/
theorem tokensOf_pair {first second : List Char} (word1 : ∀ c ∈ first, wordChar c = true)
    (word2 : ∀ c ∈ second, wordChar c = true) (ne1 : first ≠ []) (ne2 : second ≠ []) :
    tokensOf (first ++ ' ' :: second) = [first, second] := by
  have noComment : (first ++ ' ' :: second).takeWhile (· != ';') = first ++ ' ' :: second := by
    rw [List.takeWhile_eq_self_iff, List.forall_mem_append, List.forall_mem_cons]
    exact ⟨fun c hc => ne_semicolon_of_wordChar (word1 c hc), rfl, fun c hc => ne_semicolon_of_wordChar (word2 c hc)⟩
  have split1 := List.splitOnP_eq_singleton fun c hc => not_blank_of_wordChar (word1 c hc)
  have split2 := List.splitOnP_eq_singleton fun c hc => not_blank_of_wordChar (word2 c hc)
  rw [tokensOf, noComment, List.splitOnP_append_cons _ _ rfl, split1, split2]
  simp [ne1, ne2]

/-- A mnemonic and its numeral. -/
theorem tokensOf_append_hexNumeral {name : List Char} (word : ∀ c ∈ name, wordChar c = true) (ne : name ≠ [])
    (k n : Nat) : tokensOf (name ++ ' ' :: hexNumeral k n) = [name, hexNumeral k n] :=
  tokensOf_pair word wordChar_of_mem_hexNumeral ne (List.cons_ne_nil _ _)

/-! ### Lines -/

theorem parseLine_printInstr (i : Instr) : parseLine (printInstr i) = .input (.command (encode i)) := by
  cases i with
  | nop => decide
  | clr => decide
  | upd b =>
    have tokens : tokensOf (printInstr (.upd b)) = [['U', 'P', 'D'], hexNumeral 2 b.toNat] :=
      tokensOf_append_hexNumeral (name := ['U', 'P', 'D']) (by simp [wordChar]) (by simp) 2 b.toNat
    have operand := parseOperand_hexNumeral (k := 2) (by decide) (by norm_num) b
    rw [parseLine, tokens]
    simp [operand, operandLine]
  | rd => decide
  | chk x =>
    have tokens : tokensOf (printInstr (.chk x)) = [['C', 'H', 'K'], hexNumeral 4 x.toNat] :=
      tokensOf_append_hexNumeral (name := ['C', 'H', 'K']) (by simp [wordChar]) (by simp) 4 x.toNat
    have operand := parseOperand_hexNumeral (k := 4) (by decide) (by norm_num) x
    rw [parseLine, tokens]
    simp [operand, operandLine]

theorem parseLine_rawWord (cw : CommandWord) :
    parseLine (['.', 'w', 'o', 'r', 'd', ' '] ++ hexNumeral 5 cw.toNat) = .input (.command cw) := by
  have tokens : tokensOf (['.', 'w', 'o', 'r', 'd', ' '] ++ hexNumeral 5 cw.toNat) =
      [['.', 'w', 'o', 'r', 'd'], hexNumeral 5 cw.toNat] :=
    tokensOf_append_hexNumeral (name := ['.', 'w', 'o', 'r', 'd']) (by simp [wordChar]) (by simp) 5 cw.toNat
  have operand := parseOperand_hexNumeral (k := 5) (by decide) (by norm_num) cw
  rw [parseLine, tokens]
  simp [operand, operandLine]

end Sys2Proof.Machine

/-! ## Settled: the lines of a listing -/

namespace Sys2Proof.Proofs

open Sys2Proof.Machine

/-- Settles O46: a legal word is printed as its command, which encodes to it again by `encode_of_decode`; an illegal one
as its digits. -/
theorem printedLinesReadBack : Obligations.PrintedLinesReadBack := by
  intro x
  cases x with
  | reset => decide
  | command cw =>
    cases hd : decode cw with
    | ok i =>
      rw [printInput, hd, ← encode_of_decode hd]
      exact parseLine_printInstr i
    | error why =>
      rw [printInput, hd]
      exact parseLine_rawWord cw

end Sys2Proof.Proofs
